-- ==== Sys2Proof/Word.lean ====
section
/-! DEFINITION. The widths of the block's values: bytes of the stream, 16-bit host words, 9-bit host addresses
(spec/00_scope.md R8, R12). All values are unsigned. -/

namespace Sys2Proof

/-- One byte of the stream, bit 0 the least significant (R12). -/
abbrev Byte := BitVec 8

/-- One 16-bit word: the checksum register and every host register (R6, R47). -/
abbrev Word := BitVec 16

/-- A 9-bit host word address (R8, R47). -/
abbrev Addr := BitVec 9

end Sys2Proof
end

