-- ==== Sys2Proof/Config.lean ====
section
/-! DEFINITION. What is fixed for the block: the wire and checksum constants of spec/00_scope.md R5 to R8, the
default of the open parameter `CRC_K`, and the free values, which have no body. -/

namespace Sys2Proof.Config

/-- `SYNC_BYTE` (R5). -/
def syncByte : Byte := 0xA5

/-- `MAX_BODY` (R8): the length of the working and of the result body buffer. -/
def maxBody : Nat := 255

/-- `CRC_INIT` (R6, R73). -/
def crcInit : Word := 0xFFFF

/-- The default of the parameter `CRC_K` (R7): the value the field `crcK` has in `State.reset` (log entry 3). -/
def crcKDefault : Word := 0xA001

/-- The byte that `WBUF[i]` holds when nothing has written it since power-on: unspecified (R19, R40, U11).
FREE VALUE, log entry 4. -/
opaque wbufPowerOn : Nat → Byte

/-- The byte that `RES_BODY[i]` holds when nothing has written it since power-on: unspecified (R32, R40, U11).
FREE VALUE, log entry 4. -/
opaque resBodyPowerOn : Nat → Byte

/-- The byte string behind `QUERY_PAYLOAD`, an open parameter with no value in the source (R105, D28).
FREE VALUE, log entry 17. -/
opaque queryBytes : List Byte

/-- `QUERY_PAYLOAD` (R105): "a byte string of 0 to 254 bytes". -/
def queryPayload : List Byte := queryBytes.take 254

end Sys2Proof.Config
end

