-- ==== Sys2Proof/Syntax.lean ====
section
/-! DEFINITION. The instructions: one constructor per row of spec/opcode_table.json, with the records they are
decoded from and the part of the state that the choice of the row depends on (spec/30_encoding.md R69, R70). -/

namespace Sys2Proof

/-- `PHASE` (R13). Codes 5 to 7 are never produced and are left out of the type. -/
inductive Phase where
  | hunt
  | len
  | body
  | crcHi
  | crcLo
deriving DecidableEq, Repr

/-- The classes of command types (R101). -/
inductive CmdClass where
  | setPtt
  | setFreq
  | setMode
  | queryStatus
  | unknown
deriving DecidableEq, Repr

/-- The registers that R69 looks at to choose the operation of an event. -/
structure Select where
  /-- `PHASE`. -/
  phase : Phase
  /-- `SYNC_CNT`. -/
  syncCnt : BitVec 2
  /-- `IDX`. -/
  idx : Byte
  /-- `LEN`. -/
  len : Byte
deriving DecidableEq, Repr

/-- The five events (R10). -/
inductive Event where
  | reset
  | idle
  | byte (b : Byte)
  | abort
  | hostWrite (a : Addr) (v : Word)
deriving DecidableEq, Repr

/-- One record of the opcode table's four formats (R70). -/
inductive Code where
  /-- Format `EVENT`: the 12-bit event word, with `h_addr` and `h_wdata` beside it. -/
  | event (w : BitVec 12) (a : Addr) (v : Word)
  /-- Format `READ`: a host read of one address. -/
  | read (a : Addr)
  /-- Format `CMDR`: the 16-bit value of a command. -/
  | cmdr (v : Word)
  /-- Format `FRAME`: the bytes of a frame in arrival order. -/
  | frame (bytes : List Byte)
deriving DecidableEq, Repr

/-- Why a record encodes no instruction. -/
inductive DecodeError where
  /-- Bit 8 of an event word is 1; R70 lays it out as zero. -/
  | eventZeroBit
  /-- Kind 5, 6 or 7 of an event word: R70 gives kinds 0 to 4. -/
  | eventKind
  /-- A byte in phase `BODY` with `IDX >= LEN`: no row of R69, excluded by R37. -/
  | bodyFull
  /-- A `CMDR` record in which not exactly one of bits 3 to 0 is set. -/
  | notOneCommand
  /-- A `FRAME` record of fewer than six bytes. -/
  | frameShort
  /-- A `FRAME` record that does not begin with the sync marker. -/
  | frameNoMarker
  /-- A `FRAME` record whose length is not 7 + L. -/
  | frameLength
deriving DecidableEq, Repr

/-- The instructions, in the order of spec/opcode_table.json. -/
inductive Instr where
  /-- `RESET` (R117). -/
  | reset
  /-- `IDLE` (R89). -/
  | idle
  /-- `HUNT.A5` (R85). -/
  | huntA5
  /-- `HUNT.LOCK` (R86). -/
  | huntLock
  /-- `HUNT.SKIP` (R87), the byte that is no sync byte. -/
  | huntSkip (b : Byte)
  /-- `LEN.BYTE` (R91), the length byte, not zero. -/
  | lenByte (b : Byte)
  /-- `LEN.ZERO` (R92). -/
  | lenZero
  /-- `BODY.BYTE` (R93). -/
  | bodyByte (b : Byte)
  /-- `BODY.LAST` (R94). -/
  | bodyLast (b : Byte)
  /-- `CRCHI.BYTE` (R95). -/
  | crchiByte (b : Byte)
  /-- `CRCLO.BYTE` (R96). -/
  | crcloByte (b : Byte)
  /-- `ABORT.HUNT` (R88). -/
  | abortHunt
  /-- `ABORT.FRAME` (R98). -/
  | abortFrame
  /-- `HW.CTRL` (R118), the written value. -/
  | hwCtrl (v : Word)
  /-- `HW.CMDR` (R119), the written value. -/
  | hwCmdr (v : Word)
  /-- `HW.NONE` (R125), address and value. -/
  | hwNone (a : Addr) (v : Word)
  /-- `HR` (R124), the address read. -/
  | hr (a : Addr)
  /-- `CMDR.ACK` (R120). -/
  | cmdrAck
  /-- `CMDR.CLR_OVR` (R121). -/
  | cmdrClrOvr
  /-- `CMDR.CLR_SKIP` (R122). -/
  | cmdrClrSkip
  /-- `CMDR.ABORT` (R123). -/
  | cmdrAbort
  /-- `SET_PTT` (R102): the length byte and the frame's bytes after the command type. -/
  | setPtt (lenb : Byte) (tail : List Byte)
  /-- `SET_FREQ` (R103). -/
  | setFreq (lenb : Byte) (tail : List Byte)
  /-- `SET_MODE` (R104). -/
  | setMode (lenb : Byte) (tail : List Byte)
  /-- `QUERY_STATUS` (R105). -/
  | queryStatus (lenb : Byte) (tail : List Byte)
  /-- `UNKNOWN` (R106): any other command type. -/
  | unknown (lenb : Byte) (cmd : Byte) (tail : List Byte)
deriving DecidableEq, Repr

end Sys2Proof
end

