-- ==== Sys2Proof/WellFormed.lean ====
section
/-! DEFINITION. Which instructions an encoding admits: the operand conditions of the rows of
spec/opcode_table.json that do not depend on the state. -/

namespace Sys2Proof

/-- A frame's tail is what follows its sixth byte: with length byte `L` a frame has 7 + L bytes (R58). -/
def frameTailOk (lenb : Byte) (tail : List Byte) : Bool := tail.length == lenb.toNat + 1

/-- The command types of the four defined rows (R63). -/
def isDefinedCmd (c : Byte) : Bool := c == 0x07 || c == 0x09 || c == 0x0A || c == 0x0B

/-- The operand conditions of the rows (R69, R70, R106). -/
def Instr.wellFormed : Instr → Bool
  | .reset => true
  | .idle => true
  | .huntA5 => true
  | .huntLock => true
  | .huntSkip b => b != Config.syncByte
  | .lenByte b => b != 0
  | .lenZero => true
  | .bodyByte _ => true
  | .bodyLast _ => true
  | .crchiByte _ => true
  | .crcloByte _ => true
  | .abortHunt => true
  | .abortFrame => true
  | .hwCtrl _ => true
  | .hwCmdr _ => true
  | .hwNone a _ => a != 0x000 && a != 0x002
  | .hr _ => true
  | .cmdrAck => true
  | .cmdrClrOvr => true
  | .cmdrClrSkip => true
  | .cmdrAbort => true
  | .setPtt lenb tail => frameTailOk lenb tail
  | .setFreq lenb tail => frameTailOk lenb tail
  | .setMode lenb tail => frameTailOk lenb tail
  | .queryStatus lenb tail => frameTailOk lenb tail
  | .unknown lenb cmd tail => !isDefinedCmd cmd && frameTailOk lenb tail

/-- The state condition of each row (the row's `when`, R69). -/
def Instr.selected (x : Select) : Instr → Bool
  | .reset => true
  | .idle => true
  | .huntA5 => x.phase == .hunt && x.syncCnt != 3
  | .huntLock => x.phase == .hunt && x.syncCnt == 3
  | .huntSkip _ => x.phase == .hunt
  | .lenByte _ => x.phase == .len
  | .lenZero => x.phase == .len
  | .bodyByte _ => x.phase == .body && decide (x.idx.toNat + 1 < x.len.toNat)
  | .bodyLast _ => x.phase == .body && x.idx.toNat + 1 == x.len.toNat
  | .crchiByte _ => x.phase == .crcHi
  | .crcloByte _ => x.phase == .crcLo
  | .abortHunt => x.phase == .hunt
  | .abortFrame => x.phase != .hunt
  | .hwCtrl _ => true
  | .hwCmdr _ => true
  | .hwNone _ _ => true
  | .hr _ => true
  | .cmdrAck => true
  | .cmdrClrOvr => true
  | .cmdrClrSkip => true
  | .cmdrAbort => true
  | .setPtt _ _ => true
  | .setFreq _ _ => true
  | .setMode _ _ => true
  | .queryStatus _ _ => true
  | .unknown _ _ _ => true

end Sys2Proof
end

