-- ==== Sys2Proof/Decode.lean ====
section
/-! DEFINITION. Decoding a record of the opcode table's formats in a selection context (spec/30_encoding.md R69,
R70), the encoder, and the reading of a bare table word (log entry 14). -/

namespace Sys2Proof

/-- `cmd_class(c)` (R101). -/
def cmdClass (c : Byte) : CmdClass :=
  if c = 0x07 then .setPtt
  else if c = 0x09 then .setFreq
  else if c = 0x0A then .setMode
  else if c = 0x0B then .queryStatus
  else .unknown

/-- The operation of a `Byte(b)` event (R69). -/
def decodeByte (x : Select) (b : Byte) : Except DecodeError Instr :=
  match x.phase with
  | .hunt =>
    if b = Config.syncByte then (if x.syncCnt = 3 then .ok .huntLock else .ok .huntA5) else .ok (.huntSkip b)
  | .len => if b = 0 then .ok .lenZero else .ok (.lenByte b)
  | .body =>
    if x.idx.toNat + 1 < x.len.toNat then .ok (.bodyByte b)
    else if x.idx.toNat + 1 = x.len.toNat then .ok (.bodyLast b)
    else .error .bodyFull
  | .crcHi => .ok (.crchiByte b)
  | .crcLo => .ok (.crcloByte b)

/-- The operation of an event (R69): the table is complete but for a byte in a full body. -/
def decodeEvent (x : Select) : Event → Except DecodeError Instr
  | .reset => .ok .reset
  | .idle => .ok .idle
  | .byte b => decodeByte x b
  | .abort => if x.phase = .hunt then .ok .abortHunt else .ok .abortFrame
  | .hostWrite a v =>
    if a = 0x000 then .ok (.hwCtrl v) else if a = 0x002 then .ok (.hwCmdr v) else .ok (.hwNone a v)

/-- The event of a 12-bit event word `kkk0 dddddddd` with the address and data beside it (R70): the data byte
counts for `BYTE` only, address and value for `HWRITE` only. -/
def eventOf (w : BitVec 12) (a : Addr) (v : Word) : Except DecodeError Event :=
  if w[8] then .error .eventZeroBit
  else
    let kind : BitVec 3 := w.extractLsb' 9 3
    if kind = 0 then .ok .idle
    else if kind = 1 then .ok (.byte (w.extractLsb' 0 8))
    else if kind = 2 then .ok .abort
    else if kind = 3 then .ok (.hostWrite a v)
    else if kind = 4 then .ok .reset
    else .error .eventKind

/-- The command of a `CMDR` record: bits 15 to 4 are ignored (R119), one of bits 3 to 0 is set (R70, log entry 11). -/
def decodeCmdr (v : Word) : Except DecodeError Instr :=
  let c : BitVec 4 := v.extractLsb' 0 4
  if c = 0b0001 then .ok .cmdrAck
  else if c = 0b0010 then .ok .cmdrClrOvr
  else if c = 0b0100 then .ok .cmdrClrSkip
  else if c = 0b1000 then .ok .cmdrAbort
  else .error .notOneCommand

/-- The row of a frame with this length byte, sixth byte and tail (R63, R106). -/
def frameInstr (lenb cmd : Byte) (tail : List Byte) : Instr :=
  match cmdClass cmd with
  | .setPtt => .setPtt lenb tail
  | .setFreq => .setFreq lenb tail
  | .setMode => .setMode lenb tail
  | .queryStatus => .queryStatus lenb tail
  | .unknown => .unknown lenb cmd tail

/-- A whole frame: marker, length byte, sixth byte, and the rest of its 7 + L bytes (R57, R58, R70). -/
def decodeFrame : List Byte → Except DecodeError Instr
  | s0 :: s1 :: s2 :: s3 :: lenb :: cmd :: tail =>
    if s0 = Config.syncByte ∧ s1 = Config.syncByte ∧ s2 = Config.syncByte ∧ s3 = Config.syncByte then
      if frameTailOk lenb tail then .ok (frameInstr lenb cmd tail) else .error .frameLength
    else .error .frameNoMarker
  | _ => .error .frameShort

/-- The instruction a record encodes in a selection context. -/
def decode (x : Select) : Code → Except DecodeError Instr
  | .event w a v =>
    match eventOf w a v with
    | .ok e => decodeEvent x e
    | .error r => .error r
  | .read a => .ok (.hr a)
  | .cmdr v => decodeCmdr v
  | .frame bytes => decodeFrame bytes

/-- The event word of a kind and a data byte (R70). -/
def eventWord (kind : BitVec 3) (data : Byte) : BitVec 12 := kind ++ (0 : BitVec 1) ++ data

/-- The record of a `Byte(b)` event. -/
def byteCode (b : Byte) : Code := .event (eventWord 1 b) 0 0

/-- The record of an event (R70). -/
def eventCode : Event → Code
  | .idle => .event (eventWord 0 0) 0 0
  | .byte b => byteCode b
  | .abort => .event (eventWord 2 0) 0 0
  | .hostWrite a v => .event (eventWord 3 0) a v
  | .reset => .event (eventWord 4 0) 0 0

/-- The four sync bytes (R5). -/
def marker : List Byte := [Config.syncByte, Config.syncByte, Config.syncByte, Config.syncByte]

/-- The bytes of a frame whose first six are the marker, `lenb` and `cmd` (R58). -/
def frameBytes (lenb cmd : Byte) (tail : List Byte) : List Byte := marker ++ lenb :: cmd :: tail

/-- The record of an instruction, from the rows of spec/opcode_table.json. -/
def encode : Instr → Code
  | .reset => eventCode .reset
  | .idle => eventCode .idle
  | .huntA5 => byteCode Config.syncByte
  | .huntLock => byteCode Config.syncByte
  | .huntSkip b => byteCode b
  | .lenByte b => byteCode b
  | .lenZero => byteCode 0
  | .bodyByte b => byteCode b
  | .bodyLast b => byteCode b
  | .crchiByte b => byteCode b
  | .crcloByte b => byteCode b
  | .abortHunt => eventCode .abort
  | .abortFrame => eventCode .abort
  | .hwCtrl v => eventCode (.hostWrite 0x000 v)
  | .hwCmdr v => eventCode (.hostWrite 0x002 v)
  | .hwNone a v => eventCode (.hostWrite a v)
  | .hr a => .read a
  | .cmdrAck => .cmdr 0x0001
  | .cmdrClrOvr => .cmdr 0x0002
  | .cmdrClrSkip => .cmdr 0x0004
  | .cmdrAbort => .cmdr 0x0008
  | .setPtt lenb tail => .frame (frameBytes lenb 0x07 tail)
  | .setFreq lenb tail => .frame (frameBytes lenb 0x09 tail)
  | .setMode lenb tail => .frame (frameBytes lenb 0x0A tail)
  | .queryStatus lenb tail => .frame (frameBytes lenb 0x0B tail)
  | .unknown lenb cmd tail => .frame (frameBytes lenb cmd tail)

/-- The selection context of the state after reset (R40), in which a bare table word is read (log entry 14). -/
def selectAfterReset : Select := ⟨.hunt, 0, 0, 0⟩

/-- Byte `i` of a number, counted from its least significant byte. -/
def natByte (w i : Nat) : Byte := BitVec.ofNat 8 (w / 2 ^ (8 * i))

/-- The record of a frame whose first six bytes are given and every later byte of its 7 + L bytes is 0. -/
def zeroFrame (b0 b1 b2 b3 lenb cmd : Byte) : Code :=
  .frame ([b0, b1, b2, b3, lenb, cmd] ++ List.replicate (lenb.toNat + 1) 0)

/-- The record of a table word that is a frame's first six bytes, byte 0 in bits 47:40 (R70). -/
def tableFrame (w : Nat) : Code :=
  zeroFrame (natByte w 5) (natByte w 4) (natByte w 3) (natByte w 2) (natByte w 1) (natByte w 0)

/-- The same with byte 0 in bits 7:0, the order of words that count on from the first (log entry 15). -/
def tableFrameLow (w : Nat) : Code :=
  zeroFrame (natByte w 0) (natByte w 1) (natByte w 2) (natByte w 3) (natByte w 4) (natByte w 5)

/-- The record of a table word that is an event word, with the address word above it in bits 31:16 and the data
word in bits 47:32 (log entry 15). -/
def tableEvent (w : Nat) : Code := .event (.ofNat 12 w) (.ofNat 9 (w / 2 ^ 16)) (.ofNat 16 (w / 2 ^ 32))

/-- Whether `w` is the value of exactly one command of `CMDR`. -/
def isCommandWord (w : Nat) : Bool := w == 1 || w == 2 || w == 4 || w == 8

/-- Whether the low 16 bits of `w` are an event word of R70. -/
def isEventWord (w : Nat) : Bool :=
  w % 2 ^ 16 < 2 ^ 12 && (eventOf (.ofNat 12 w) 0 0).toOption.isSome

/-- The record of a bare table word. The word does not say its format, so the formats are tried in a fixed order:
a frame (its marker), a single command, an event word, any other value with one command bit, and last the `READ`
row, whose all-zero mask matches every word (log entry 14). -/
def tableCode (nbits w : Nat) : Code :=
  if 32 < nbits ∧ w / 2 ^ 16 = 0xA5A5A5A5 then tableFrame w
  else if 32 < nbits ∧ w % 2 ^ 32 = 0xA5A5A5A5 then tableFrameLow w
  else if isCommandWord w then .cmdr (.ofNat 16 w)
  else if 8 < nbits ∧ isEventWord w then tableEvent w
  else if (decodeCmdr (.ofNat 16 w)).toOption.isSome then .cmdr (.ofNat 16 w)
  else .read (.ofNat 9 w)

/-- The instruction decoded from a bare table word, in the context of the state after reset. -/
def decodeTableWord (nbits w : Nat) : Option Instr := (decode selectAfterReset (tableCode nbits w)).toOption

end Sys2Proof
end

