-- ==== Sys2Proof/Machine/State.lean ====
section
/-! DEFINITION. The state of the block (spec/10_state.md), the reasons a step can stop, and the state after reset. -/

namespace Sys2Proof.Machine

/-- `RES_STATUS` and `done_status` (R23). Codes 5 to 7 are never produced and are left out of the type. -/
inductive Status where
  | none
  | ok
  | badCrc
  | emptyBody
  | truncated
deriving DecidableEq, Repr

/-- A byte buffer of the block as (index, byte) pairs, indexes strictly rising; an unlisted index holds no value
(R19: "a model should give unwritten elements no value"). -/
abbrev Memory := List Host.Cell

/-- The scalar fields of the result record (R23 to R31); `EMIT` and reset write it whole. -/
structure Result where
  /-- `RES_STATUS` (R23). -/
  status : Status
  /-- `RES_CRC_OK` (R24). -/
  crcOk : Bool
  /-- `RES_SKIP` (R25). -/
  skip : Bool
  /-- `RES_PHASE` (R26). -/
  phase : Phase
  /-- `RES_LEN` (R27). -/
  len : Byte
  /-- `RES_COUNT` (R28). -/
  count : Byte
  /-- `RES_CMD` (R29). -/
  cmd : Byte
  /-- `RES_CRC_RX` (R30). -/
  crcRx : Word
  /-- `RES_CRC_CALC` (R31). -/
  crcCalc : Word
deriving DecidableEq, Repr

/-- `Out = (done, done_status)` (R36). -/
structure Out where
  /-- `done`. -/
  done : Bool
  /-- `done_status`. -/
  status : Status
deriving DecidableEq, Repr

/-- What `ptt_view` returns (R102). -/
inductive PttView where
  | transmit
  | receive
  | invalid
deriving DecidableEq, Repr

/-- The payload view that the host's consumer takes of a frame (R102 to R106); in `freq` and `mode`, `Option.none`
is the view's `INVALID`. -/
inductive PayloadView where
  /-- No view: no frame reported `OK` with a command type, or a command type without a view. -/
  | none
  | ptt (p : PttView)
  | freq (f : Option (BitVec 32 × BitVec 32))
  | mode (m : Option (Byte × Byte))
deriving DecidableEq, Repr

/-- The machine never faults: "The block never stops, never refuses a byte" (R127), so no constructor (log entry 20). -/
inductive Fault where
deriving DecidableEq, Repr

/-- Why a step has no meaning. -/
inductive Refusal where
  /-- Raised by an arm of `exec` whose instruction has no meaning yet. Safe: no behaviour is claimed. -/
  | notModelled (mnemonic : String)
  /-- Raised by a step whose input record encodes no instruction, with the reason. Safe: the spec gives such a
  record no meaning. -/
  | undecodable (e : DecodeError)
  /-- Raised by a meaning run in a state that its row's condition in R69 excludes; the decoder never selects it
  there. Safe: the spec gives the pair no meaning (log entry 12). -/
  | notSelected
deriving DecidableEq, Repr

/-- The state of the block, its outputs, and the model's own fields. -/
structure State where
  /-- `PHASE` (R13). -/
  phase : Phase
  /-- `SYNC_CNT` (R14). -/
  syncCnt : BitVec 2
  /-- `LEN` (R15). -/
  len : Byte
  /-- `IDX` (R16). -/
  idx : Byte
  /-- `CRC` (R17). -/
  crc : Word
  /-- `CRC_RX_HI` (R18). -/
  crcRxHi : Byte
  /-- `WBUF` (R19). -/
  wbuf : Memory
  /-- `SKIP` (R20). -/
  skip : Bool
  /-- `RES_VALID` (R21). -/
  resValid : Bool
  /-- `OVERRUN` (R22). -/
  overrun : Bool
  /-- The result record (R23 to R31). -/
  res : Result
  /-- `RES_BODY` (R32). -/
  resBody : Memory
  /-- `STRICT` (R33). -/
  strict : Bool
  /-- `IE` (R34). -/
  ie : Bool
  /-- `CRC_K`, the build parameter (R7, R38): no step changes it (log entry 3). -/
  crcK : Word
  /-- The output of the last event (R36, log entry 6). -/
  out : Out
  /-- The value of the last host read on port `h_rdata` (R67, R124, log entry 7). -/
  hRdata : Word
  /-- The MODEL's own: the last payload view the host's consumer took (log entry 8). -/
  view : PayloadView
  /-- The MODEL's own: what the outside agents deliver next (R9, log entry 1). -/
  input : List Code
deriving DecidableEq, Repr

/-- The result record after reset (R40). -/
def Result.reset : Result := ⟨.none, false, false, .hunt, 0, 0, 0, 0x0000, 0x0000⟩

/-- `Out = (0, 0)` (R36). -/
def Out.quiet : Out := ⟨false, .none⟩

/-- The machine right after reset (R40): nothing written in the buffers, nothing at the input. -/
def State.reset : State where
  phase := .hunt
  syncCnt := 0
  len := 0x00
  idx := 0
  crc := 0xFFFF
  crcRxHi := 0x00
  wbuf := []
  skip := false
  resValid := false
  overrun := false
  res := Result.reset
  resBody := []
  strict := true
  ie := false
  crcK := Config.crcKDefault
  out := Out.quiet
  hRdata := 0x0000
  view := .none
  input := []

end Sys2Proof.Machine
end

