-- ==== Sys2Proof/Machine/Crc.lean ====
section
/-! DEFINITION. The CRC engine (spec/40_crc.md) for every feedback constant `k` (the parameter `CRC_K`). -/

namespace Sys2Proof.Machine

/-- `crc_init()` (R73). -/
def crcInit : Word := Config.crcInit

/-- `crc_bit(c, d)` (R74). -/
def crcBit (k c : Word) (d : Bool) : Word := (c >>> 1) ^^^ (if c.getLsbD 0 ^^ d then k else 0x0000)

/-- The register after the first `n` bits of `b`, bit 0 first (R75). -/
def crcBits (k c : Word) (b : Byte) : Nat → Word
  | 0 => c
  | n + 1 => crcBit k (crcBits k c b n) (b.getLsbD n)

/-- `crc_byte(c, b)` (R75). -/
def crcByte (k c : Word) (b : Byte) : Word := crcBits k c b 8

/-- `n` shifts with a zero data bit: the loop of the second form of R75. -/
def crcShifts (k c : Word) : Nat → Word
  | 0 => c
  | n + 1 => crcBit k (crcShifts k c n) false

/-- The second form of `crc_byte` in R75: the byte XORed into the low byte at once. -/
def crcByteFolded (k c : Word) (b : Byte) : Word := crcShifts k (c ^^^ b.setWidth 16) 8

/-- `T[x]` (R78). -/
def crcTable (k : Word) (x : Byte) : Word := crcByte k 0x0000 x

/-- The table form of `crc_byte` (R78). -/
def crcByteTable (k c : Word) (b : Byte) : Word := (c >>> 8) ^^^ crcTable k (c.setWidth 8 ^^^ b)

/-- The register after a byte sequence, from register `c`. -/
def crcFrom (k c : Word) (s : List Byte) : Word := s.foldl (crcByte k) c

/-- `crc_seq(s)` (R76). -/
def crcSeq (k : Word) (s : List Byte) : Word := crcFrom k crcInit s

/-- The checksum of a frame with length byte `lenb` and body `body` (R77). -/
def frameCrc (k : Word) (lenb : Byte) (body : List Byte) : Word := crcSeq k (lenb :: body)

/-- `CRC.CMP` (R79). -/
def crcCmp (rx c : Word) : Bool := rx == c

end Sys2Proof.Machine
end

