-- ==== Sys2Proof/Machine/Operands.lean ====
section
/-! DEFINITION. Operand forms: the assembly of the received checksum (spec/30_encoding.md R61), big-endian fields
(R12, R43), the codes of `PHASE` and `RES_STATUS`, and the packing of the host registers (spec/20_memory.md R49). -/

namespace Sys2Proof.Machine

/-- The code of `PHASE` (R13). -/
def phaseCode : Phase → BitVec 3
  | .hunt => 0
  | .len => 1
  | .body => 2
  | .crcHi => 3
  | .crcLo => 4

/-- The code of `RES_STATUS` (R23). -/
def statusCode : Status → BitVec 3
  | .none => 0
  | .ok => 1
  | .badCrc => 2
  | .emptyBody => 3
  | .truncated => 4

/-- `hi : lo`, two bytes as a word, the first in bits 15:8 (R41, R61). -/
def wordOfBytes (hi lo : Byte) : Word := hi ++ lo

/-- Bits 15:8 of a word. -/
def hiByte (w : Word) : Byte := w.extractLsb' 8 8

/-- Bits 7:0 of a word. -/
def loByte (w : Word) : Byte := w.extractLsb' 0 8

/-- `be16(v)` (R12). -/
def be16 (v : Word) : List Byte := [hiByte v, loByte v]

/-- `be32(v)` (R12). -/
def be32 (v : BitVec 32) : List Byte :=
  [v.extractLsb' 24 8, v.extractLsb' 16 8, v.extractLsb' 8 8, v.extractLsb' 0 8]

/-- Four bytes as a 32-bit value, the first most significant (R43, R103). -/
def dwordOfBytes (b0 b1 b2 b3 : Byte) : BitVec 32 := b0 ++ b1 ++ b2 ++ b3

/-- One bit. -/
def bit (b : Bool) : BitVec 1 := BitVec.ofBool b

/-- `CTRL`: `STRICT` in bit 0, `IE` in bit 1 (R49). -/
def ctrlWord (ie strict : Bool) : Word := (0 : BitVec 14) ++ bit ie ++ bit strict

/-- `STATUS`: `IRQ` 8, `OVERRUN` 7, `RES_VALID` 6, `SKIP` 5, `SYNC_CNT` 4:3, `PHASE` 2:0 (R49). -/
def statusWord (irq overrun valid skip : Bool) (sync : BitVec 2) (p : Phase) : Word :=
  (0 : BitVec 7) ++ bit irq ++ bit overrun ++ bit valid ++ bit skip ++ sync ++ phaseCode p

/-- `RES_INFO`: `RES_LEN` 15:8, `RES_PHASE` 7:5, `RES_SKIP` 4, `RES_CRC_OK` 3, `RES_STATUS` 2:0 (R49). -/
def resInfoWord (r : Result) : Word :=
  r.len ++ phaseCode r.phase ++ bit r.skip ++ bit r.crcOk ++ statusCode r.status

end Sys2Proof.Machine
end

