-- ==== Sys2Proof/Machine/Flags.lean ====
section
/-! DEFINITION. The flag and verdict computations (spec/42_parser.md R96, R97; spec/41_sync.md R88; spec/10_state.md
R35). -/

namespace Sys2Proof.Machine

/-- The verdict of a frame received to its last byte, in the priority order of R96. -/
def verdict (strict ok : Bool) (len : Byte) : Status :=
  if !ok && strict then .badCrc else if len = 0 then .emptyBody else .ok

/-- `OVERRUN` when a result is recorded (R97). -/
def overrunOnEmit (overrun valid : Bool) : Bool := overrun || valid

/-- `SKIP` after an abort in `HUNT`: set when a partial marker is thrown away (R88). -/
def skipOnAbort (skip : Bool) (sync : BitVec 2) : Bool := skip || sync != 0

/-- `irq = IE & RES_VALID` (R35). -/
def irqLine (ie valid : Bool) : Bool := ie && valid

/-- `irq` of a state (R35). -/
def State.irq (s : State) : Bool := irqLine s.ie s.resValid

end Sys2Proof.Machine
end

