-- ==== Sys2Proof/Machine/Ops.lean ====
section
/-! DEFINITION. The named operations over the buffers and the state: `EMIT` (spec/42_parser.md R97), the block's
counterpart of taking an exception, and the acknowledge (spec/44_host.md R120), its counterpart of the return; the
aborts, the reset, and the host read. -/

namespace Sys2Proof.Machine

/-! ### Buffers -/

/-- The value of an element, if it holds one. -/
def Memory.read : Memory → Nat → Option Byte
  | [], _ => none
  | (a, b) :: m, i => if i = a then some b else Memory.read m i

/-- The sorted list with element `i` set to `b`. -/
def Memory.insert : Memory → Nat → Byte → Memory
  | [], i, b => [(i, b)]
  | (a, c) :: m, i, b =>
    if i < a then (i, b) :: (a, c) :: m
    else if i = a then (i, b) :: m
    else (a, c) :: Memory.insert m i b

/-- Store to one element; the buffers have elements 0 to 254 and no rule stores elsewhere (R84, R93). -/
def Memory.write (m : Memory) (i : Nat) (b : Byte) : Memory :=
  if i < Config.maxBody then m.insert i b else m

/-- The canonical form: indexes strictly rising from `lo` and below 255. -/
def Memory.wfFrom : Nat → Memory → Bool
  | _, [] => true
  | lo, (a, _) :: m => decide (lo ≤ a) && decide (a < Config.maxBody) && Memory.wfFrom (a + 1) m

/-- The canonical form of a buffer. -/
def Memory.wf (m : Memory) : Bool := Memory.wfFrom 0 m

/-- The byte a rule takes from `WBUF[i]`: its value, or the unspecified power-on content (R19, U11, log entry 4). -/
def wbufByte (m : Memory) (i : Nat) : Byte := (m.read i).getD (Config.wbufPowerOn i)

/-- `for i = 0 to n-1: RES_BODY[i] <- WBUF[i]` (R97). -/
def copyBody (wbuf dst : Memory) : Nat → Memory
  | 0 => dst
  | n + 1 => (copyBody wbuf dst n).write n (wbufByte wbuf n)

/-! ### Selection and outputs -/

/-- The registers that the choice of an operation depends on (R69). -/
def State.select (s : State) : Select := ⟨s.phase, s.syncCnt, s.idx, s.len⟩

/-- Set `Out`. -/
def State.setOut (s : State) (o : Out) : State := { s with out := o }

/-- `Out = (0, 0)`: the event records no result (R36). -/
def State.quiet (s : State) : State := s.setOut Out.quiet

/-- Leave the rest of the input for the next step. -/
def State.setInput (s : State) (l : List Code) : State := { s with input := l }

/-! ### The result record -/

/-- The record that `EMIT(status, ok, rx)` writes (R97). -/
def State.newResult (s : State) (status : Status) (ok : Bool) (rx : Word) : Result where
  status := status
  crcOk := ok
  skip := s.skip
  phase := s.phase
  len := s.len
  count := s.idx
  cmd := if 1 ≤ s.idx.toNat then wbufByte s.wbuf 0 else 0x00
  crcRx := rx
  crcCalc := s.crc

/-- `EMIT(status, ok, rx)` (R97, R137): record a result. -/
def State.emit (s : State) (status : Status) (ok : Bool) (rx : Word) : State :=
  { s with
    overrun := overrunOnEmit s.overrun s.resValid
    resValid := true
    skip := false
    res := s.newResult status ok rx
    resBody := copyBody s.wbuf s.resBody s.idx.toNat
    out := ⟨true, status⟩ }

/-- End the frame in progress: `EMIT`, then `PHASE <- HUNT` (R96, R98, R137). -/
def State.endFrame (s : State) (status : Status) (ok : Bool) (rx : Word) : State :=
  { s.emit status ok rx with phase := .hunt }

/-! ### Host commands and aborts -/

/-- `RES_VALID <- 0` (R120, R138). -/
def State.ack (s : State) : State := { s with resValid := false }

/-- `OVERRUN <- 0` (R121). -/
def State.clrOvr (s : State) : State := { s with overrun := false }

/-- `SKIP <- 0` (R122). -/
def State.clrSkip (s : State) : State := { s with skip := false }

/-- The effect of `Abort` in phase `HUNT` (R88). -/
def State.abortHunt (s : State) : State :=
  { s with skip := skipOnAbort s.skip s.syncCnt, syncCnt := 0, out := Out.quiet }

/-- The effect of `Abort` in a frame (R98). -/
def State.abortFrame (s : State) : State := s.endFrame .truncated false 0x0000

/-- The event `Abort`, whoever raises it (R88, R98, R123). -/
def State.abort (s : State) : State := if s.phase = .hunt then s.abortHunt else s.abortFrame

/-- Run a command when its bit is set. -/
def State.command (s : State) (b : Bool) (f : State → State) : State := if b then f s else s

/-- The four commands of a `CMDR` write in ascending bit order, each seeing the state the previous one left (R119). -/
def State.commands (s : State) (v : Word) : State :=
  (((s.quiet.command v[0] State.ack).command v[1] State.clrOvr).command v[2]
    State.clrSkip).command v[3] State.abort

/-- The event `Reset` (R117, R40): every register of the table to its reset value; the buffers, the build
parameter, and what belongs to the outside agents stay. -/
def State.resetEvent (s : State) : State :=
  { State.reset with
    wbuf := s.wbuf
    resBody := s.resBody
    crcK := s.crcK
    hRdata := s.hRdata
    view := s.view
    input := s.input }

/-! ### The host read -/

/-- `BODY[i]` as the host sees it: gated by `RES_COUNT` (R32, R49). -/
def State.bodyWindow (s : State) (i : Nat) : Byte :=
  if i < s.res.count.toNat then (s.resBody.read i).getD (Config.resBodyPowerOn i) else 0x00

/-- `HostRead(a)` (R124). -/
def State.hostRead (s : State) (a : Addr) : Word :=
  if a = 0x000 then ctrlWord s.ie s.strict
  else if a = 0x001 then statusWord s.irq s.overrun s.resValid s.skip s.syncCnt s.phase
  else if a = 0x002 then 0x0000
  else if a = 0x003 then resInfoWord s.res
  else if a = 0x004 then wordOfBytes s.res.count s.res.cmd
  else if a = 0x005 then s.res.crcRx
  else if a = 0x006 then s.res.crcCalc
  else if a = 0x007 then s.crc
  else if a = 0x008 then wordOfBytes s.idx s.len
  else if a = 0x009 then wordOfBytes 0 s.crcRxHi
  else if a = 0x00A then s.crcK
  else if 0x100 ≤ a.toNat ∧ a.toNat ≤ 0x1FE then wordOfBytes 0 (s.bodyWindow (a.toNat - 0x100))
  else 0x0000

/-! ### Outcomes -/

/-- What a step answers. -/
abbrev Answer := Host.Outcome State Fault Refusal

/-- Go on with a next state; a fault or a refusal stands. -/
def andThen (o : Answer) (f : State → Answer) : Answer :=
  match o with
  | .next s => f s
  | .fault r => .fault r
  | .refused r => .refused r

/-- A meaning under its row's selection condition (R69, log entry 12). -/
def whenSelected (c : Prop) [Decidable c] (t : State) : Answer := if c then .next t else .refused .notSelected

end Sys2Proof.Machine
end

