-- ==== Sys2Proof/Machine/Sync.lean ====
section
/-! DEFINITION. The synchronizer (spec/41_sync.md): `HUNT.A5`, `HUNT.LOCK`, `HUNT.SKIP`, `ABORT.HUNT`, `IDLE`. -/

namespace Sys2Proof.Machine

/-- One more sync byte counted (R85). -/
def State.countSync (s : State) : State := { s with syncCnt := s.syncCnt + 1, out := Out.quiet }

/-- The marker is complete and a frame begins (R86). -/
def State.lock (s : State) : State :=
  { s with
    syncCnt := 0
    phase := .len
    len := 0x00
    idx := 0
    crc := crcInit
    crcRxHi := 0x00
    out := Out.quiet }

/-- A byte that cannot be part of a marker (R87). -/
def State.skipByte (s : State) : State := { s with syncCnt := 0, skip := true, out := Out.quiet }

/-- `IDLE` (R89). -/
def execIdle (s : State) : Answer := .next s.quiet

/-- `HUNT.A5` (R85). -/
def execHuntA5 (s : State) : Answer := whenSelected (s.phase = .hunt ∧ s.syncCnt ≠ 3) s.countSync

/-- `HUNT.LOCK` (R86). -/
def execHuntLock (s : State) : Answer := whenSelected (s.phase = .hunt ∧ s.syncCnt = 3) s.lock

/-- `HUNT.SKIP` (R87). -/
def execHuntSkip (b : Byte) (s : State) : Answer :=
  whenSelected (s.phase = .hunt ∧ b ≠ Config.syncByte) s.skipByte

/-- `ABORT.HUNT` (R88). -/
def execAbortHunt (s : State) : Answer := whenSelected (s.phase = .hunt) s.abortHunt

end Sys2Proof.Machine
end

