-- ==== Sys2Proof/Machine/Parser.lean ====
section
/-! DEFINITION. The length, body and checksum parser (spec/42_parser.md): `LEN.BYTE`, `LEN.ZERO`, `BODY.BYTE`,
`BODY.LAST`, `CRCHI.BYTE`, `CRCLO.BYTE`, `ABORT.FRAME`. -/

namespace Sys2Proof.Machine

/-- A length byte that is not zero (R91). -/
def State.takeLen (s : State) (b : Byte) : State :=
  { s with len := b, crc := crcByte s.crcK s.crc b, phase := .body, out := Out.quiet }

/-- A length byte of zero (R92). -/
def State.takeLenZero (s : State) : State :=
  { s with len := 0x00, crc := crcByte s.crcK s.crc 0x00, phase := .crcHi, out := Out.quiet }

/-- Store a body byte, with the phase that follows it (R93, R94). -/
def State.takeBody (s : State) (b : Byte) (p : Phase) : State :=
  { s with
    wbuf := s.wbuf.write s.idx.toNat b
    crc := crcByte s.crcK s.crc b
    idx := s.idx + 1
    phase := p
    out := Out.quiet }

/-- The first byte of the CRC field (R95). -/
def State.takeCrcHi (s : State) (b : Byte) : State := { s with crcRxHi := b, phase := .crcLo, out := Out.quiet }

/-- The second byte of the CRC field: the verdict (R96). -/
def State.takeCrcLo (s : State) (b : Byte) : State :=
  let rx := wordOfBytes s.crcRxHi b
  let ok := crcCmp rx s.crc
  s.endFrame (verdict s.strict ok s.len) ok rx

/-- `LEN.BYTE` (R91). -/
def execLenByte (b : Byte) (s : State) : Answer := whenSelected (s.phase = .len ∧ b ≠ 0) (s.takeLen b)

/-- `LEN.ZERO` (R92). -/
def execLenZero (s : State) : Answer := whenSelected (s.phase = .len) s.takeLenZero

/-- `BODY.BYTE` (R93). -/
def execBodyByte (b : Byte) (s : State) : Answer :=
  whenSelected (s.phase = .body ∧ s.idx.toNat + 1 < s.len.toNat) (s.takeBody b .body)

/-- `BODY.LAST` (R94). -/
def execBodyLast (b : Byte) (s : State) : Answer :=
  whenSelected (s.phase = .body ∧ s.idx.toNat + 1 = s.len.toNat) (s.takeBody b .crcHi)

/-- `CRCHI.BYTE` (R95). -/
def execCrchiByte (b : Byte) (s : State) : Answer := whenSelected (s.phase = .crcHi) (s.takeCrcHi b)

/-- `CRCLO.BYTE` (R96). -/
def execCrcloByte (b : Byte) (s : State) : Answer := whenSelected (s.phase = .crcLo) (s.takeCrcLo b)

/-- `ABORT.FRAME` (R98). -/
def execAbortFrame (s : State) : Answer := whenSelected (s.phase ≠ .hunt) s.abortFrame

end Sys2Proof.Machine
end

