-- ==== Sys2Proof/Machine/HostPort.lean ====
section
/-! DEFINITION. Reset and the host operations (spec/44_host.md): `RESET`, `HW.CTRL`, `HW.CMDR` and its four commands,
`HW.NONE`, `HR`. -/

namespace Sys2Proof.Machine

/-- `STRICT <- v[0]`, `IE <- v[1]` (R118). -/
def State.writeCtrl (s : State) (v : Word) : State :=
  { s with strict := v[0], ie := v[1], out := Out.quiet }

/-- The value of a host read on `h_rdata`; nothing else changes (R52, R124). -/
def State.readReg (s : State) (a : Addr) : State := { s with hRdata := s.hostRead a }

/-- `RESET` (R117). -/
def execReset (s : State) : Answer := .next s.resetEvent

/-- `HW.CTRL` (R118). -/
def execHwCtrl (v : Word) (s : State) : Answer := .next (s.writeCtrl v)

/-- `HW.CMDR` (R119). -/
def execHwCmdr (v : Word) (s : State) : Answer := .next (s.commands v)

/-- `HW.NONE` (R125): a write to any address but `CTRL` and `CMDR` is ignored. -/
def execHwNone (a : Addr) (_v : Word) (s : State) : Answer := whenSelected (a ≠ 0x000 ∧ a ≠ 0x002) s.quiet

/-- `HR` (R124). -/
def execHr (a : Addr) (s : State) : Answer := .next (s.readReg a)

/-- `CMDR.ACK` (R120). -/
def execCmdrAck (s : State) : Answer := .next s.quiet.ack

/-- `CMDR.CLR_OVR` (R121). -/
def execCmdrClrOvr (s : State) : Answer := .next s.quiet.clrOvr

/-- `CMDR.CLR_SKIP` (R122). -/
def execCmdrClrSkip (s : State) : Answer := .next s.quiet.clrSkip

/-- `CMDR.ABORT` (R123). -/
def execCmdrAbort (s : State) : Answer := .next s.abort

end Sys2Proof.Machine
end

