-- ==== Sys2Proof/Machine/Codec.lean ====
section
/-! DEFINITION. The pure functions of spec/43_commands.md: the payload views, the mode table, the reference
`frame_encode` and `frame_decode`, and the pseudo-operations. The block runs none of them. -/

namespace Sys2Proof.Machine

/-! ### Payload views -/

/-- `ptt_view(body, n)` (R102). -/
def pttView (body : Nat → Byte) (n : Nat) : PttView :=
  if n ≠ 2 then .invalid
  else if body 1 = 0x00 then .transmit
  else if body 1 = 0x01 then .receive
  else .invalid

/-- `freq_view(body, n)` (R103); `none` is `INVALID`. -/
def freqView (body : Nat → Byte) (n : Nat) : Option (BitVec 32 × BitVec 32) :=
  if n ≠ 9 then none
  else some (dwordOfBytes (body 1) (body 2) (body 3) (body 4), dwordOfBytes (body 5) (body 6) (body 7) (body 8))

/-- `mode_view(body, n)` (R104); `none` is `INVALID`. -/
def modeView (body : Nat → Byte) (n : Nat) : Option (Byte × Byte) :=
  if n ≠ 3 then none else some (body 1, body 2)

/-- The view of a class of command types (R102 to R106). -/
def classView (c : CmdClass) (body : Nat → Byte) (n : Nat) : PayloadView :=
  match c with
  | .setPtt => .ptt (pttView body n)
  | .setFreq => .freq (freqView body n)
  | .setMode => .mode (modeView body n)
  | .queryStatus => .none
  | .unknown => .none

/-! ### The mode table -/

/-- `mode_name(id)` with its fallback (R107, R108). -/
def modeName (m : Byte) : String :=
  if m = 1 then "LSB" else if m = 2 then "CWR" else if m = 3 then "CWL" else if m = 4 then "AM"
  else if m = 5 then "WFM" else if m = 6 then "NFM" else if m = 7 then "DIGI" else if m = 8 then "PKT" else "USB"

/-- `mode_id(name)` with its fallback (R107, R108). -/
def modeId (name : String) : Byte :=
  if name = "LSB" then 1 else if name = "CWR" then 2 else if name = "CWL" then 3 else if name = "AM" then 4
  else if name = "WFM" then 5 else if name = "NFM" then 6 else if name = "DIGI" then 7 else if name = "PKT" then 8
  else 0

/-! ### Reference functions -/

/-- The length byte of a body. -/
def lenByteOf (body : List Byte) : Byte := .ofNat 8 body.length

/-- `FRAME(cmd; payload)` or, for an empty body, `FRAME(; )`: the bytes with a correct checksum (R71). -/
def frameOf (k : Word) (body : List Byte) : List Byte :=
  marker ++ lenByteOf body :: (body ++ be16 (frameCrc k (lenByteOf body) body))

/-- `frame_encode(cmd, payload)` (R111); `none` is `EncodingError`. -/
def frameEncode (k : Word) (cmd : Byte) (payload : List Byte) : Option (List Byte) :=
  if payload.length > 254 then none else some (frameOf k (cmd :: payload))

/-- What `frame_decode` returns (R112). -/
inductive Parsed where
  | frame (cmd : Byte) (payload : List Byte)
  | badSync
  | truncated
  | badChecksum
  | emptyBody
deriving DecidableEq, Repr

/-- The part of `frame_decode` after the length byte `lenb`; `rest` is `raw[5 ..]` (R112). -/
def decodeAfterLen (k : Word) (strict : Bool) (lenb : Byte) (rest : List Byte) : Parsed :=
  let n := lenb.toNat
  if rest.length < n + 2 then .truncated
  else if strict && !crcCmp (wordOfBytes (rest.getD n 0) (rest.getD (n + 1) 0)) (frameCrc k lenb (rest.take n)) then
    .badChecksum
  else
    match rest.take n with
    | [] => .emptyBody
    | cmd :: payload => .frame cmd payload

/-- `frame_decode(raw, strict)` (R112). -/
def frameDecode (k : Word) (strict : Bool) (raw : List Byte) : Parsed :=
  if raw.take 4 ≠ marker then .badSync
  else
    match raw.drop 4 with
    | [] => .truncated
    | lenb :: rest => decodeAfterLen k strict lenb rest

/-! ### Pseudo-operations -/

/-- The pseudo-operations (R114). -/
inductive Pseudo where
  | setPttTx
  | setPttRx
  | setFreq (f : BitVec 32)
  | setModeName (name : String)
  | setModeId (m : Byte)
  | query
deriving DecidableEq, Repr

/-- The body of a pseudo-operation's frame (R114). -/
def pseudoBody : Pseudo → List Byte
  | .setPttTx => [0x07, 0x00]
  | .setPttRx => [0x07, 0x01]
  | .setFreq f => 0x09 :: (be32 f ++ be32 f)
  | .setModeName name => [0x0A, modeId name, modeId name]
  | .setModeId m => if m.toNat ≤ 8 then [0x0A, m, m] else [0x0A, 0, 0]
  | .query => 0x0B :: Config.queryPayload

/-- The expansion of a pseudo-operation into a frame (R72, R114). -/
def pseudoFrame (k : Word) (p : Pseudo) : List Byte := frameOf k (pseudoBody p)

end Sys2Proof.Machine
end

