-- ==== Sys2Proof/Machine/Frames.lean ====
section
/-! DEFINITION. The frame rows (spec/43_commands.md R102 to R106): the block takes the frame's bytes one `Byte` event
after another, and the host's consumer then takes the payload view of what the block reports (log entries 8, 9). -/

namespace Sys2Proof.Machine

/-- One `Byte(b)` event: the operation that R69 selects. -/
def deliverByte (b : Byte) (s : State) : Answer :=
  match s.phase with
  | .hunt =>
    if b = Config.syncByte then (if s.syncCnt = 3 then execHuntLock s else execHuntA5 s) else execHuntSkip b s
  | .len => if b = 0 then execLenZero s else execLenByte b s
  | .body => if s.idx.toNat + 1 < s.len.toNat then execBodyByte b s else execBodyLast b s
  | .crcHi => execCrchiByte b s
  | .crcLo => execCrcloByte b s

/-- A run of `Byte` events in arrival order. -/
def deliver : List Byte → State → Answer
  | [], s => .next s
  | b :: bs, s => andThen (deliverByte b s) (deliver bs)

/-- The view the consumer takes when the last event recorded a result: only of a frame reported `OK` with at least
one body byte (R101, R126, R156). -/
def State.consumerView (s : State) : PayloadView :=
  if s.out = ⟨true, .ok⟩ ∧ 1 ≤ s.res.count.toNat then classView (cmdClass s.res.cmd) s.bodyWindow s.res.count.toNat
  else .none

/-- The consumer takes its view. -/
def State.takeView (s : State) : State := { s with view := s.consumerView }

/-- A whole frame: its bytes, then the view. -/
def deliverFrame (lenb cmd : Byte) (tail : List Byte) (s : State) : Answer :=
  andThen (deliver (frameBytes lenb cmd tail) s) fun t => .next t.takeView

/-- `SET_PTT` (R102). -/
def execSetPtt (lenb : Byte) (tail : List Byte) (s : State) : Answer := deliverFrame lenb 0x07 tail s

/-- `SET_FREQ` (R103). -/
def execSetFreq (lenb : Byte) (tail : List Byte) (s : State) : Answer := deliverFrame lenb 0x09 tail s

/-- `SET_MODE` (R104). -/
def execSetMode (lenb : Byte) (tail : List Byte) (s : State) : Answer := deliverFrame lenb 0x0A tail s

/-- `QUERY_STATUS` (R105). -/
def execQueryStatus (lenb : Byte) (tail : List Byte) (s : State) : Answer := deliverFrame lenb 0x0B tail s

/-- `UNKNOWN` (R106). -/
def execUnknown (lenb cmd : Byte) (tail : List Byte) (s : State) : Answer := deliverFrame lenb cmd tail s

end Sys2Proof.Machine
end

