-- ==== Sys2Proof/Machine/Dispatch.lean ====
section
/-! DEFINITION. One arm per instruction. -/

namespace Sys2Proof.Machine

def exec (i : Instr) (s : State) : Host.Outcome State Fault Refusal :=
  match i with
  | .reset => Sys2Proof.Machine.execReset s
  | .idle => Sys2Proof.Machine.execIdle s
  | .huntA5 => Sys2Proof.Machine.execHuntA5 s
  | .huntLock => Sys2Proof.Machine.execHuntLock s
  | .huntSkip b => Sys2Proof.Machine.execHuntSkip b s
  | .lenByte b => Sys2Proof.Machine.execLenByte b s
  | .lenZero => Sys2Proof.Machine.execLenZero s
  | .bodyByte b => Sys2Proof.Machine.execBodyByte b s
  | .bodyLast b => Sys2Proof.Machine.execBodyLast b s
  | .crchiByte b => Sys2Proof.Machine.execCrchiByte b s
  | .crcloByte b => Sys2Proof.Machine.execCrcloByte b s
  | .abortHunt => Sys2Proof.Machine.execAbortHunt s
  | .abortFrame => Sys2Proof.Machine.execAbortFrame s
  | .hwCtrl v => Sys2Proof.Machine.execHwCtrl v s
  | .hwCmdr v => Sys2Proof.Machine.execHwCmdr v s
  | .hwNone a v => Sys2Proof.Machine.execHwNone a v s
  | .hr a => Sys2Proof.Machine.execHr a s
  | .cmdrAck => Sys2Proof.Machine.execCmdrAck s
  | .cmdrClrOvr => Sys2Proof.Machine.execCmdrClrOvr s
  | .cmdrClrSkip => Sys2Proof.Machine.execCmdrClrSkip s
  | .cmdrAbort => Sys2Proof.Machine.execCmdrAbort s
  | .setPtt lenb tail => Sys2Proof.Machine.execSetPtt lenb tail s
  | .setFreq lenb tail => Sys2Proof.Machine.execSetFreq lenb tail s
  | .setMode lenb tail => Sys2Proof.Machine.execSetMode lenb tail s
  | .queryStatus lenb tail => Sys2Proof.Machine.execQueryStatus lenb tail s
  | .unknown lenb cmd tail => Sys2Proof.Machine.execUnknown lenb cmd tail s

end Sys2Proof.Machine
end

