-- ==== Sys2Proof/Machine/Run.lean ====
section
/-! DEFINITION. Running records and events: the fetch of the next input record, the event function of
spec/00_scope.md R10, and a clock cycle of the ports (spec/30_encoding.md R67, R68). -/

namespace Sys2Proof.Machine

/-- Decode a record in the state's context and run the instruction. -/
def runCode (c : Code) (s : State) : Answer :=
  match decode s.select c with
  | .ok i => exec i s
  | .error e => .refused (.undecodable e)

/-- The next input record and the state without it; with nothing delivered the event is `Idle` (R68, log entry 2). -/
def fetch (s : State) : Code × State :=
  match s.input with
  | [] => (eventCode .idle, s)
  | c :: rest => (c, s.setInput rest)

/-- `step(State, Event)` of R10; its `Out` is the field `out` of the next state. -/
def runEvent (e : Event) (s : State) : Answer := runCode (eventCode e) s

/-- A sequence of events (R11, R53). -/
def runEvents : List Event → State → Answer
  | [], s => .next s
  | e :: es, s => andThen (runEvent e s) (runEvents es)

/-- The input ports of one clock cycle (R67). -/
structure Ports where
  rst : Bool
  inValid : Bool
  inData : Byte
  inAbort : Bool
  hWe : Bool
  hAddr : Addr
  hWdata : Word
deriving DecidableEq, Repr

/-- The output ports of one clock cycle (R67). -/
structure PortsOut where
  hRdata : Word
  irq : Bool
  out : Out
deriving DecidableEq, Repr

/-- From one clock cycle to events (R68). -/
def cycleEvents (p : Ports) : List Event :=
  if p.rst then [.reset]
  else
    let es := (if p.hWe then [.hostWrite p.hAddr p.hWdata] else []) ++ (if p.inAbort then [.abort] else [])
      ++ (if p.inValid then [.byte p.inData] else [])
    if es.isEmpty then [.idle] else es

/-- `done` and `done_status` of a cycle: those of the event that had `done = 1`, else (0, 0) (R68). -/
def mergeOut (a b : Out) : Out := if a.done then a else b

/-- The events of a cycle, gathering `Out`. -/
def runGather : List Event → Out → State → Option (State × Out)
  | [], o, s => some (s, o)
  | e :: es, o, s =>
    match runEvent e s with
    | .next t => runGather es (mergeOut o t.out) t
    | .fault _ => none
    | .refused _ => none

/-- One clock cycle: the state after its events, and the output ports, of which `h_rdata` and `irq` are of the state
at the start of the cycle (R67, R68). -/
def runCycle (p : Ports) (s : State) : Option (State × PortsOut) :=
  (runGather (cycleEvents p) Out.quiet s).map fun r => (r.1, ⟨s.hostRead p.hAddr, s.irq, r.2⟩)

end Sys2Proof.Machine
end

