-- ==== Sys2Proof/Machine/Step.lean ====
section
/-! DEFINITION. One step: the next input record, decoded in the state's context, and its meaning. -/

namespace Sys2Proof.Machine

/-- One step of the machine (R10, R69). -/
def step (s : State) : Host.Outcome State Fault Refusal := runCode (fetch s).1 (fetch s).2

/-- The state with the record of a table word as the next input (log entries 1, 14). -/
def State.withFetchWord (s : State) (nbits w : Nat) : State := s.setInput (tableCode nbits w :: s.input)

end Sys2Proof.Machine
end

