-- ==== Sys2Proof/Safety.lean ====
section
/-! DEFINITION. The terms the statements are made in: the invariants of spec/10_state.md R37, what recording a result
means field by field (spec/42_parser.md R97), the phase graph (R99), and runs of events. -/

namespace Sys2Proof.Machine

/-- The buffers have their canonical form and every element a rule may read holds a value (R37 item 6, log entry 19). -/
abbrev State.BufferInv (s : State) : Prop :=
  s.wbuf.wf = true ∧ s.resBody.wf = true ∧ (∀ i < s.idx.toNat, (s.wbuf.read i).isSome = true)
    ∧ (∀ i < s.res.count.toNat, (s.resBody.read i).isSome = true)

/-- R37 items 1 to 5. -/
abbrev State.ParserInv (s : State) : Prop :=
  (s.phase ≠ .hunt → s.syncCnt = 0) ∧ s.idx.toNat ≤ s.len.toNat
    ∧ (s.phase = .len → s.len = 0 ∧ s.idx = 0 ∧ s.crc = 0xFFFF ∧ s.crcRxHi = 0)
    ∧ (s.phase = .body → 1 ≤ s.len.toNat ∧ s.idx.toNat < s.len.toNat)
    ∧ (s.phase = .crcHi ∨ s.phase = .crcLo → s.idx = s.len)

/-- R37 items 7 and 9 (first sentence), and R29. -/
abbrev Result.Inv (r : Result) : Prop :=
  r.count.toNat ≤ r.len.toNat
    ∧ (r.status = .ok ∨ r.status = .badCrc ∨ r.status = .emptyBody → r.count = r.len ∧ r.phase = .crcLo)
    ∧ (r.status = .emptyBody → r.len = 0) ∧ (r.status = .ok → 1 ≤ r.len.toNat)
    ∧ (r.status = .truncated → r.crcOk = false ∧ r.crcRx = 0 ∧ r.phase ≠ .hunt)
    ∧ (r.status = .badCrc → r.crcOk = false) ∧ (r.count = 0 → r.cmd = 0)

/-- R37 item 8 as a property of the state, and `RES_CMD = RES_BODY[0]` (R29). -/
abbrev State.RecordInv (s : State) : Prop :=
  s.res.Inv ∧ (s.res.status = .none → s.res = Result.reset ∧ s.resValid = false ∧ s.overrun = false)
    ∧ (1 ≤ s.res.count.toNat → s.resBody.read 0 = some s.res.cmd)

/-- The invariants of R37. -/
abbrev State.Inv (s : State) : Prop := s.ParserInv ∧ s.BufferInv ∧ s.RecordInv

/-- The machine answers a next state. -/
abbrev goesOn (o : Answer) : Prop := ∃ t, o = .next t

/-- `CRC_K[15] = 1`, the constraint on the parameter (R83). -/
abbrev State.legalK (s : State) : Prop := s.crcK[15] = true

/-! ### Recording a result -/

/-- The assignments of `EMIT(status, ok, rx)`, one by one, from the state before to the state after (R97). -/
structure Recorded (s t : State) (status : Status) (ok : Bool) (rx : Word) : Prop where
  overrun : t.overrun = (s.overrun || s.resValid)
  resValid : t.resValid = true
  status_eq : t.res.status = status
  crcOk : t.res.crcOk = ok
  resSkip : t.res.skip = s.skip
  skip : t.skip = false
  phase : t.res.phase = s.phase
  len : t.res.len = s.len
  count : t.res.count = s.idx
  cmd_first : ∀ c, 1 ≤ s.idx.toNat → s.wbuf.read 0 = some c → t.res.cmd = c
  cmd_none : s.idx = 0 → t.res.cmd = 0
  crcRx : t.res.crcRx = rx
  crcCalc : t.res.crcCalc = s.crc
  copied : ∀ i < s.idx.toNat, ∀ c, s.wbuf.read i = some c → t.resBody.read i = some c
  kept : ∀ i, s.idx.toNat ≤ i → t.resBody.read i = s.resBody.read i
  out : t.out = ⟨true, status⟩

/-- Everything a frame's end leaves alone: the working registers but `PHASE` and `SKIP`, every byte of `WBUF`, the
control bits, the build parameter, and what belongs to the outside agents (R96 (d), R97, R98). -/
structure KeptAtFrameEnd (s t : State) : Prop where
  syncCnt : t.syncCnt = s.syncCnt
  len : t.len = s.len
  idx : t.idx = s.idx
  crc : t.crc = s.crc
  crcRxHi : t.crcRxHi = s.crcRxHi
  wbuf : ∀ i, t.wbuf.read i = s.wbuf.read i
  strict : t.strict = s.strict
  ie : t.ie = s.ie
  crcK : t.crcK = s.crcK
  hRdata : t.hRdata = s.hRdata
  view : t.view = s.view
  input : t.input = s.input

/-- What no `Byte`, `Abort` or `Idle` event and no frame row changes: the control bits, the build parameter, the last
host read and the input. -/
structure KeptByStream (s t : State) : Prop where
  strict : t.strict = s.strict
  ie : t.ie = s.ie
  crcK : t.crcK = s.crcK
  hRdata : t.hRdata = s.hRdata
  input : t.input = s.input

/-- What a whole frame with body `body` and the right checksum `hi : lo`, taken from `HUNT` with no byte counted,
leaves (R86 to R97, R100): every register, both buffers byte by byte, and what stays. -/
structure GoodFrame (s t : State) (body : List Byte) (hi lo : Byte) : Prop where
  out : t.out = ⟨true, .ok⟩
  phase : t.phase = .hunt
  syncCnt : t.syncCnt = 0
  len : t.len.toNat = body.length
  idx : t.idx.toNat = body.length
  crc : t.crc = hi ++ lo
  crcRxHi : t.crcRxHi = hi
  skip : t.skip = false
  resValid : t.resValid = true
  overrun : t.overrun = (s.overrun || s.resValid)
  res : t.res = ⟨.ok, true, s.skip, .crcLo, t.len, t.idx, body.headD 0, hi ++ lo, hi ++ lo⟩
  wbuf : ∀ i < body.length, t.wbuf.read i = body[i]?
  wbuf_kept : ∀ i, body.length ≤ i → t.wbuf.read i = s.wbuf.read i
  resBody : ∀ i < body.length, t.resBody.read i = body[i]?
  resBody_kept : ∀ i, body.length ≤ i → t.resBody.read i = s.resBody.read i
  window : ∀ i < body.length, body[i]? = some (t.bodyWindow i)
  kept : KeptByStream s t

/-! ### Runs -/

/-- A sequence of instructions. -/
def execAll : List Instr → State → Answer
  | [], s => .next s
  | i :: is, s => andThen (exec i s) (execAll is)

/-- The commands of a `CMDR` value in ascending bit order (R119). -/
def commandsOf (v : Word) : List Instr :=
  (if v[0] then [.cmdrAck] else []) ++ (if v[1] then [.cmdrClrOvr] else []) ++ (if v[2] then [.cmdrClrSkip] else [])
    ++ (if v[3] then [.cmdrAbort] else [])

/-- A byte stream as events. -/
def bytesAsEvents (bs : List Byte) : List Event := bs.map Event.byte

/-- The bytes that a sequence of events delivers. -/
def bytesOf : List Event → List Byte
  | [] => []
  | .byte b :: es => b :: bytesOf es
  | _ :: es => bytesOf es

/-- A `Byte`, an `Idle`, or a `HostWrite` that does not abort (R100). -/
def noAbort : Event → Bool
  | .reset => false
  | .idle => true
  | .byte _ => true
  | .abort => false
  | .hostWrite a v => !(a == 0x002 && v[3])

/-- Whether an event is a write to `CMDR` with any of the bits of `m`. -/
def writesCmdr (m : Word) : Event → Bool
  | .hostWrite a v => a == 0x002 && v &&& m != 0
  | _ => false

/-- The state after the first event with `done = 1`, if there is one (R113). -/
def firstResult : List Event → State → Option State
  | [], _ => none
  | e :: es, s =>
    match runEvent e s with
    | .next t => if t.out.done then some t else firstResult es t
    | .fault _ => none
    | .refused _ => none

/-- How many of the events have `done = 1`. -/
def countDone : List Event → State → Nat
  | [], _ => 0
  | e :: es, s =>
    match runEvent e s with
    | .next t => (if t.out.done then 1 else 0) + countDone es t
    | .fault _ => 0
    | .refused _ => 0

/-- The phase after an event, from the table of R99. -/
def phaseAfter (s : State) (e : Event) : Phase :=
  match e with
  | .reset => .hunt
  | .idle => s.phase
  | .abort => .hunt
  | .hostWrite a v => if a = 0x002 ∧ v[3] = true then .hunt else s.phase
  | .byte b =>
    match s.phase with
    | .hunt => if b = Config.syncByte ∧ s.syncCnt = 3 then .len else .hunt
    | .len => if b = 0 then .crcHi else .body
    | .body => if s.idx.toNat + 1 = s.len.toNat then .crcHi else .body
    | .crcHi => .crcLo
    | .crcLo => .hunt

/-! ### What cannot be observed -/

/-- Two states that differ at most in buffer bytes that belong to no frame: elements of `WBUF` at or above `IDX`, of
`RES_BODY` at or above `RES_COUNT` (R19, R32). -/
structure SameButStale (s t : State) : Prop where
  rest : { s with wbuf := [], resBody := [] } = { t with wbuf := [], resBody := [] }
  wbuf : ∀ i < s.idx.toNat, wbufByte s.wbuf i = wbufByte t.wbuf i
  body : ∀ i < s.res.count.toNat, s.bodyWindow i = t.bodyWindow i

/-- The block's own part of a state: the fields of the outside agents blanked (log entries 1, 7, 8). -/
def State.block (s : State) : State := { s with hRdata := 0, view := .none, input := [] }

end Sys2Proof.Machine
end

