-- ==== Sys2Proof/Certificates/Slice0/Obligations.lean ====
section
/-! DEFINITION. The statements for the provers, each from the numbered rules of spec/ its docstring names. -/

open Sys2Proof Sys2Proof.Machine

/-- In phase HUNT with SYNC_CNT below 3 the byte A5 runs HUNT.A5, which answers the state with SYNC_CNT one higher (no
wrap) and done = 0; no other register, no buffer and no checksum changes. (Stated: R85.) -/
def Obligations.SyncByteIsCounted : Prop :=
  ∀ s : State, s.phase = .hunt → s.syncCnt.toNat < 3 →
    runEvent (.byte 0xA5) s = exec .huntA5 s
    ∧ exec .huntA5 s = .next { s with syncCnt := s.syncCnt + 1, out := ⟨false, .none⟩ }
    ∧ (s.syncCnt + 1).toNat = s.syncCnt.toNat + 1

/-- In phase HUNT with SYNC_CNT = 3 the byte A5 runs HUNT.LOCK: SYNC_CNT 0, PHASE LEN, LEN 0, IDX 0, CRC FFFF, CRC_RX_HI
0, done = 0, everything else (SKIP, the result record, WBUF) unchanged; and whatever byte comes next is taken as the
length byte, A5 included. (Stated: R86.) -/
def Obligations.FourthSyncByteOpensFrame : Prop :=
  ∀ s : State, s.phase = .hunt → s.syncCnt = 3 →
    runEvent (.byte 0xA5) s = exec .huntLock s
    ∧ ∃ t, exec .huntLock s = .next t
      ∧ t = { s with
          syncCnt := 0, phase := .len, len := 0x00, idx := 0, crc := 0xFFFF, crcRxHi := 0x00
          out := ⟨false, .none⟩ }
      ∧ ∀ b : Byte, runEvent (.byte b) t = exec (if b = 0 then .lenZero else .lenByte b) t

/-- In phase HUNT a byte other than A5 runs HUNT.SKIP: SYNC_CNT 0, SKIP 1, done = 0, nothing recorded, everything else
unchanged. (Stated: R87.) -/
def Obligations.NonSyncByteIsSkipped : Prop :=
  ∀ (s : State) (b : Byte), s.phase = .hunt → b ≠ 0xA5 →
    runEvent (.byte b) s = exec (.huntSkip b) s
    ∧ exec (.huntSkip b) s = .next { s with syncCnt := 0, skip := true, out := ⟨false, .none⟩ }

/-- In phase HUNT the event Abort, and CMDR.ABORT alike, run ABORT.HUNT: SKIP becomes SKIP or (SYNC_CNT not 0), SYNC_CNT
0, done = 0, the result record untouched; with SYNC_CNT = 0 nothing but Out changes. (Stated: R88.) -/
def Obligations.AbortInHuntDropsPartialMarker : Prop :=
  ∀ s : State, s.phase = .hunt →
    runEvent .abort s = exec .abortHunt s ∧ exec .cmdrAbort s = exec .abortHunt s
    ∧ exec .abortHunt s
        = .next { s with skip := s.skip || decide (s.syncCnt ≠ 0), syncCnt := 0, out := ⟨false, .none⟩ }
    ∧ (s.syncCnt = 0 → exec .abortHunt s = .next { s with out := ⟨false, .none⟩ })

/-- In every phase IDLE leaves the state unchanged with Out = (0, 0), and so does any run of one or more Idle events.
(Stated: R89.) -/
def Obligations.IdleEventsChangeNothing : Prop :=
  ∀ s : State, exec .idle s = .next { s with out := ⟨false, .none⟩ }
    ∧ ∀ n : Nat, runEvents (List.replicate (n + 1) .idle) s = .next { s with out := ⟨false, .none⟩ }

/-- From HUNT with SYNC_CNT = 0: a stream without four consecutive A5 leaves the block in HUNT, with SKIP set if a byte
other than A5 came and nothing else but SYNC_CNT and Out changed; a stream p A5 A5 A5 A5 whose marker is not complete
earlier ends in phase LEN with the frame registers initialised and SKIP set if p is not empty. (Derived: R90,
41_sync.md R85 to R88.) -/
def Obligations.HuntLocksAtFirstMarker : Prop :=
  ∀ s : State, s.phase = .hunt → s.syncCnt = 0 →
    (∀ bs : List Byte, ¬ [0xA5, 0xA5, 0xA5, 0xA5] <:+: bs →
      ∃ t, runEvents (bytesAsEvents bs) s = .next t
        ∧ t = { s with syncCnt := t.syncCnt, skip := s.skip || bs.any (· != 0xA5), out := t.out })
    ∧ ∀ p : List Byte, ¬ [0xA5, 0xA5, 0xA5, 0xA5] <:+: p ++ [0xA5, 0xA5, 0xA5] →
      runEvents (bytesAsEvents (p ++ [0xA5, 0xA5, 0xA5, 0xA5])) s
        = .next { s with
            syncCnt := 0, phase := .len, len := 0x00, idx := 0, crc := 0xFFFF, crcRxHi := 0x00
            skip := s.skip || !p.isEmpty, out := ⟨false, .none⟩ }

/-- In phase LEN a byte b not 0 runs LEN.BYTE: LEN = b, CRC = crc_byte(CRC, b), PHASE BODY, done = 0, everything else
unchanged; under the invariants CRC and IDX are FFFF and 0 there. (Stated: R91.) -/
def Obligations.NonzeroLengthByteOpensBody : Prop :=
  ∀ (s : State) (b : Byte), s.phase = .len → b ≠ 0 →
    runEvent (.byte b) s = exec (.lenByte b) s
    ∧ exec (.lenByte b) s
        = .next { s with len := b, crc := crcByte s.crcK s.crc b, phase := .body, out := ⟨false, .none⟩ }
    ∧ (s.Inv → s.crc = 0xFFFF ∧ s.idx = 0)

/-- In phase LEN the byte 0 runs LEN.ZERO: LEN = 0, CRC = crc_byte(CRC, 0), PHASE CRC_HI, done = 0, nothing stored; under
the invariants the new CRC is crc_seq(00), 40BF for CRC_K = A001. (Stated: R92.) -/
def Obligations.ZeroLengthByteGoesToChecksum : Prop :=
  ∀ s : State, s.phase = .len →
    runEvent (.byte 0) s = exec .lenZero s
    ∧ exec .lenZero s
        = .next { s with len := 0x00, crc := crcByte s.crcK s.crc 0x00, phase := .crcHi, out := ⟨false, .none⟩ }
    ∧ (s.Inv → crcByte s.crcK s.crc 0x00 = crcSeq s.crcK [0x00])
    ∧ (s.Inv → s.crcK = 0xA001 → crcByte s.crcK s.crc 0x00 = 0x40BF)

/-- In phase BODY with IDX + 1 < LEN a byte b runs BODY.BYTE: WBUF[IDX] = b, every other element of WBUF reads as before,
CRC = crc_byte(CRC, b), IDX one higher without wrap, PHASE still BODY, done = 0, everything else unchanged; IDX is at
most 253, and a canonical WBUF stays canonical. (Stated: R93.) -/
def Obligations.BodyByteIsStoredAtIdx : Prop :=
  ∀ (s : State) (b : Byte), s.phase = .body → s.idx.toNat + 1 < s.len.toNat →
    runEvent (.byte b) s = exec (.bodyByte b) s
    ∧ ∃ w : Memory,
        exec (.bodyByte b) s
          = .next { s with wbuf := w, crc := crcByte s.crcK s.crc b, idx := s.idx + 1, out := ⟨false, .none⟩ }
        ∧ w.read s.idx.toNat = some b ∧ (∀ j, j ≠ s.idx.toNat → w.read j = s.wbuf.read j)
        ∧ (s.wbuf.wf = true → w.wf = true)
        ∧ (s.idx + 1).toNat = s.idx.toNat + 1 ∧ s.idx.toNat ≤ 253

/-- In phase BODY with IDX + 1 = LEN a byte b runs BODY.LAST: WBUF[IDX] = b, every other element reads as before, CRC =
crc_byte(CRC, b), IDX = LEN after it, PHASE CRC_HI, done = 0, everything else unchanged; a canonical WBUF stays
canonical. (Derived: 42_parser.md section 2, R94 (all but its history clause).) -/
def Obligations.LastBodyByteClosesBody : Prop :=
  ∀ (s : State) (b : Byte), s.phase = .body → s.idx.toNat + 1 = s.len.toNat →
    runEvent (.byte b) s = exec (.bodyLast b) s
    ∧ ∃ w : Memory,
        exec (.bodyLast b) s
          = .next { s with
              wbuf := w, crc := crcByte s.crcK s.crc b, idx := s.len, phase := .crcHi, out := ⟨false, .none⟩ }
        ∧ w.read s.idx.toNat = some b ∧ (∀ j, j ≠ s.idx.toNat → w.read j = s.wbuf.read j)
        ∧ (s.wbuf.wf = true → w.wf = true)

/-- From phase LEN with the invariants, the length byte L and then the L body bytes leave CRC = crc_seq(L, body), LEN =
IDX = L, WBUF[i] the i-th body byte, PHASE CRC_HI; after a shorter run of body bytes CRC is the checksum of what
arrived and IDX counts it. With CRC_K = A001 the checksums of 02 07 00 and of 00 are 30D2 and 40BF. (Stated: R77.) -/
def Obligations.BodyChecksumAndBytesAccumulate : Prop :=
  (∀ (s : State) (lenb : Byte) (body : List Byte), s.Inv → s.phase = .len → body.length ≤ lenb.toNat →
      ∃ t, runEvents (bytesAsEvents (lenb :: body)) s = .next t
        ∧ t.crc = crcSeq s.crcK (lenb :: body) ∧ t.crc = frameCrc s.crcK lenb body
        ∧ t.len = lenb ∧ t.idx.toNat = body.length
        ∧ (∀ i < body.length, t.wbuf.read i = body[i]?) ∧ (∀ i, body.length ≤ i → t.wbuf.read i = s.wbuf.read i)
        ∧ t.phase = (if body.length = lenb.toNat then .crcHi else .body))
    ∧ frameCrc 0xA001 0x02 [0x07, 0x00] = 0x30D2 ∧ frameCrc 0xA001 0x00 [] = 0x40BF

/-- In phase CRC_HI a byte b runs CRCHI.BYTE: CRC_RX_HI = b, PHASE CRC_LO, done = 0, everything else (CRC too) unchanged.
(Stated: R95.) -/
def Obligations.CrcHighByteIsHeld : Prop :=
  ∀ (s : State) (b : Byte), s.phase = .crcHi →
    runEvent (.byte b) s = exec (.crchiByte b) s
    ∧ exec (.crchiByte b) s = .next { s with crcRxHi := b, phase := .crcLo, out := ⟨false, .none⟩ }

/-- In phase CRC_LO a byte b runs CRCLO.BYTE: with rx = CRC_RX_HI : b and ok = (rx = CRC), the status is BAD_CRC if not ok
and STRICT, else EMPTY_BODY if LEN = 0, else OK; every assignment of EMIT(status, ok, rx) holds, PHASE is HUNT, and
everything else, each byte of WBUF too, is unchanged. (Stated: R96, R97.) -/
def Obligations.CrcLowByteGivesVerdict : Prop :=
  ∀ (s : State) (b : Byte), s.phase = .crcLo →
    runEvent (.byte b) s = exec (.crcloByte b) s
    ∧ ∃ t, exec (.crcloByte b) s = .next t
      ∧ Recorded s t
          (if s.crcRxHi ++ b ≠ s.crc ∧ s.strict = true then .badCrc else if s.len = 0 then .emptyBody else .ok)
          (decide (s.crcRxHi ++ b = s.crc)) (s.crcRxHi ++ b)
      ∧ t.phase = .hunt ∧ KeptAtFrameEnd s t

/-- In a phase other than HUNT the event Abort and CMDR.ABORT run ABORT.FRAME: EMIT(TRUNCATED, 0, 0000) with RES_PHASE the
phase that was cut, then PHASE HUNT, everything else unchanged. In every state CMDR.ABORT is the event Abort. (Stated:
R98, R123.) -/
def Obligations.AbortInFrameRecordsTruncated : Prop :=
  (∀ s : State, exec .cmdrAbort s = runEvent .abort s)
    ∧ ∀ s : State, s.phase ≠ .hunt →
      runEvent .abort s = exec .abortFrame s
      ∧ ∃ t, exec .abortFrame s = .next t
        ∧ Recorded s t .truncated false 0x0000 ∧ t.phase = .hunt ∧ KeptAtFrameEnd s t

/-- If an event records OK or EMPTY_BODY in a state with STRICT = 1, then the event is a byte b in phase CRC_LO, CRC_RX_HI
: b equals CRC, and RES_CRC_OK is 1. (Derived: R155, R96, R37 item 9.) -/
def Obligations.StrictOkHasGoodChecksum : Prop :=
  ∀ (e : Event) (s t : State), s.strict = true → runEvent e s = .next t →
    t.out = ⟨true, .ok⟩ ∨ t.out = ⟨true, .emptyBody⟩ →
    ∃ b : Byte, e = .byte b ∧ s.phase = .crcLo ∧ s.crcRxHi ++ b = s.crc ∧ t.res.crcOk = true

/-- For every event but Reset and HostWrite, taken in a phase other than CRC_LO, running it with another value of STRICT
gives the same next state with that value of STRICT. (Derived: R56, R33, 92_eei_decisions.md D25.) -/
def Obligations.StrictMattersOnlyAtVerdict : Prop :=
  ∀ (e : Event) (s t : State) (v : Bool), s.phase ≠ .crcLo → e ≠ .reset → (∀ a w, e ≠ .hostWrite a w) →
    runEvent e s = .next t → runEvent e { s with strict := v } = .next { t with strict := v }

/-- Under the invariants every event answers a next state whose PHASE is the one of the table of R99; and from LEN, with L
the next byte and no Reset or abort among the events, exactly L + 3 Byte events lead to HUNT, with a result: after
fewer (at least one) the phase is not HUNT and no result is recorded, and L + 3 is at most 258. (Stated: R99.) -/
def Obligations.PhaseFollowsTheGraph : Prop :=
  (∀ (s : State) (e : Event), s.Inv → ∃ t, runEvent e s = .next t ∧ t.phase = phaseAfter s e)
    ∧ ∀ (s : State) (es : List Event) (lenb : Byte) (bs : List Byte), s.Inv → s.phase = .len →
      es.all noAbort = true → bytesOf es = lenb :: bs →
      (bs.length < lenb.toNat + 2 →
        ∃ t, runEvents es s = .next t ∧ t.phase ≠ .hunt ∧ t.out.done = false)
      ∧ (bs.length + 1 = lenb.toNat + 2 → ∀ last : Byte,
        ∃ t, runEvents (es ++ [.byte last]) s = .next t ∧ t.phase = .hunt ∧ t.out.done = true)
      ∧ lenb.toNat + 3 ≤ 258

/-- From HUNT with SYNC_CNT = 0, let events es then a last byte carry the 7 + L bytes of a frame with a body of L = 1 to
255 bytes and CRC field rx, other events being only Idle and HostWrites that do not abort. Let u be the state before
the last byte. If rx is the frame checksum, the last event has done = 1 with OK; if it differs and STRICT is 1 in u,
with BAD_CRC. Then RES_CRC_OK says which, RES_PHASE = CRC_LO, RES_LEN = RES_COUNT = L, RES_CMD is the first body byte,
BODY[i] reads the i-th, RES_CRC_RX = rx, RES_CRC_CALC the checksum, RES_SKIP the SKIP of u, SKIP = 0, PHASE = HUNT,
SYNC_CNT = 0. (Stated: R100.) -/
def Obligations.WholeFrameIsReported : Prop :=
  ∀ (s : State) (es : List Event) (last : Byte) (body : List Byte) (rx : Word),
    s.phase = .hunt → s.syncCnt = 0 → 1 ≤ body.length → body.length ≤ 255 → es.all noAbort = true →
    bytesOf es ++ [last] = [0xA5, 0xA5, 0xA5, 0xA5] ++ lenByteOf body :: (body ++ be16 rx) →
    ∃ u t, runEvents es s = .next u ∧ runEvents (es ++ [.byte last]) s = .next t
      ∧ ∀ st : Status,
        (st = .ok ∧ rx = frameCrc s.crcK (lenByteOf body) body)
          ∨ (st = .badCrc ∧ rx ≠ frameCrc s.crcK (lenByteOf body) body ∧ u.strict = true) →
        t.out = ⟨true, st⟩ ∧ t.res.status = st ∧ t.res.crcOk = decide (st = .ok) ∧ t.res.phase = .crcLo
        ∧ t.res.len.toNat = body.length ∧ t.res.count.toNat = body.length ∧ body.head? = some t.res.cmd
        ∧ (∀ i < body.length, body[i]? = some (t.bodyWindow i)
          ∧ t.hostRead (BitVec.ofNat 9 (0x100 + i)) = (t.bodyWindow i).setWidth 16)
        ∧ t.res.crcRx = rx ∧ t.res.crcCalc = frameCrc s.crcK (lenByteOf body) body
        ∧ t.res.skip = u.skip ∧ t.skip = false ∧ t.phase = .hunt ∧ t.syncCnt = 0

/-- In every state RESET answers the state in which every register has the value of the table of R40 and Out = (0, 0);
WBUF, RES_BODY, the build parameter, the last host read, the view and the input are as before; the host reads 0001 at
CTRL, FFFF at LIVE_CRC, CRC_K at PARAM_K and 0000 at every other address; irq is 0; a second Reset changes nothing; a
byte other than A5 that follows sets SKIP and nothing else. (Stated: R117, R40.) -/
def Obligations.ResetGivesTheResetTable : Prop :=
  ∀ s : State, runEvent .reset s = exec .reset s
    ∧ ∃ t, exec .reset s = .next t
      ∧ t = { s with
          phase := .hunt, syncCnt := 0, len := 0x00, idx := 0, crc := 0xFFFF, crcRxHi := 0x00, skip := false
          resValid := false, overrun := false
          res := ⟨.none, false, false, .hunt, 0x00, 0, 0x00, 0x0000, 0x0000⟩
          strict := true, ie := false, out := ⟨false, .none⟩ }
      ∧ (∀ a : Addr, t.hostRead a
          = if a = 0x000 then 0x0001 else if a = 0x007 then 0xFFFF else if a = 0x00A then s.crcK else 0x0000)
      ∧ t.irq = false ∧ exec .reset t = .next t
      ∧ ∀ b : Byte, b ≠ 0xA5 → runEvent (.byte b) t = .next { t with skip := true }

/-- The event HostWrite(000, v) runs HW.CTRL: STRICT = v[0], IE = v[1], Out = (0, 0), everything else unchanged; CTRL then
reads v with bits 15:2 cleared and irq follows IE at once. (Stated: R118.) -/
def Obligations.CtrlWriteSetsStrictAndIe : Prop :=
  ∀ (s : State) (v : Word), runEvent (.hostWrite 0x000 v) s = exec (.hwCtrl v) s
    ∧ ∃ t, exec (.hwCtrl v) s = .next t ∧ t = { s with strict := v[0], ie := v[1], out := ⟨false, .none⟩ }
      ∧ t.hostRead 0x000 = v &&& 0x0003 ∧ t.irq = (v[1] && s.resValid)

/-- The event HostWrite(002, v) runs HW.CMDR, and its next state is the one that CMDR.ACK, CMDR.CLR_OVR, CMDR.CLR_SKIP,
CMDR.ABORT give when those whose bit of v is 1 are run in this order from the state with Out = (0, 0); so with no low
bit set nothing but Out changes. Out is (0, 0) unless bit 3 ends a frame. CMDR reads 0000. (Stated: R119.) -/
def Obligations.CmdrWriteRunsItsCommandsInOrder : Prop :=
  ∀ (s : State) (v : Word), runEvent (.hostWrite 0x002 v) s = exec (.hwCmdr v) s
    ∧ exec (.hwCmdr v) s = execAll (commandsOf v) { s with out := ⟨false, .none⟩ }
    ∧ ∃ t, exec (.hwCmdr v) s = .next t ∧ t.hostRead 0x002 = 0x0000
      ∧ (v &&& 0x000F = 0 → t = { s with out := ⟨false, .none⟩ })
      ∧ (v[3] = false ∨ s.phase = .hunt → t.out = ⟨false, .none⟩)

/-- CMDR.ACK clears RES_VALID (so irq is 0), CMDR.CLR_OVR clears OVERRUN, CMDR.CLR_SKIP clears SKIP; each with Out = (0,
0) and nothing else changed, and each the same as the CMDR write of its bit alone. (Stated: R120, R121, R122.) -/
def Obligations.ClearingCommandsClearOneFlagEach : Prop :=
  ∀ s : State,
    (exec .cmdrAck s = .next { s with resValid := false, out := ⟨false, .none⟩ }
      ∧ exec (.hwCmdr 0x0001) s = exec .cmdrAck s ∧ ({ s with resValid := false } : State).irq = false)
    ∧ (exec .cmdrClrOvr s = .next { s with overrun := false, out := ⟨false, .none⟩ }
      ∧ exec (.hwCmdr 0x0002) s = exec .cmdrClrOvr s)
    ∧ (exec .cmdrClrSkip s = .next { s with skip := false, out := ⟨false, .none⟩ }
      ∧ exec (.hwCmdr 0x0004) s = exec .cmdrClrSkip s)

/-- For an address other than 000 and 002 the event HostWrite(a, v) runs HW.NONE: nothing but Out = (0, 0) changes.
(Stated: R125.) -/
def Obligations.OtherHostWritesAreIgnored : Prop :=
  ∀ (s : State) (a : Addr) (v : Word), a ≠ 0x000 → a ≠ 0x002 →
    runEvent (.hostWrite a v) s = exec (.hwNone a v) s
    ∧ exec (.hwNone a v) s = .next { s with out := ⟨false, .none⟩ }

/-- HR at address a leaves every field but the read port as it was and puts HostRead(a) there. As numbers: CTRL = STRICT +
2 IE; STATUS = PHASE + 8 SYNC_CNT + 32 SKIP + 64 RES_VALID + 128 OVERRUN + 256 irq with irq = IE and RES_VALID; CMDR
0; RES_INFO = RES_STATUS + 8 RES_CRC_OK + 16 RES_SKIP + 32 RES_PHASE + 256 RES_LEN; RES_CMDCNT = RES_CMD + 256
RES_COUNT; the two CRC registers; LIVE_CRC; LIVE_LENIDX = LEN + 256 IDX; LIVE_CRCHI; PARAM_K; BODY[i] for i below
RES_COUNT and 0 from RES_COUNT to 254; 0 at 00B to 0FF and at 1FF. (Stated: R124.) -/
def Obligations.HostReadFollowsTheRegisterMap : Prop :=
  ∀ s : State,
    (∀ a : Addr, exec (.hr a) s = .next { s with hRdata := s.hostRead a })
    ∧ (s.hostRead 0x000).toNat = s.strict.toNat + 2 * s.ie.toNat
    ∧ (s.hostRead 0x001).toNat
        = (phaseCode s.phase).toNat + 8 * s.syncCnt.toNat + 32 * s.skip.toNat + 64 * s.resValid.toNat
          + 128 * s.overrun.toNat + 256 * (s.ie && s.resValid).toNat
    ∧ s.hostRead 0x002 = 0
    ∧ (s.hostRead 0x003).toNat
        = (statusCode s.res.status).toNat + 8 * s.res.crcOk.toNat + 16 * s.res.skip.toNat
          + 32 * (phaseCode s.res.phase).toNat + 256 * s.res.len.toNat
    ∧ (s.hostRead 0x004).toNat = s.res.cmd.toNat + 256 * s.res.count.toNat
    ∧ s.hostRead 0x005 = s.res.crcRx ∧ s.hostRead 0x006 = s.res.crcCalc ∧ s.hostRead 0x007 = s.crc
    ∧ (s.hostRead 0x008).toNat = s.len.toNat + 256 * s.idx.toNat
    ∧ (s.hostRead 0x009).toNat = s.crcRxHi.toNat ∧ s.hostRead 0x00A = s.crcK
    ∧ (∀ i < s.res.count.toNat, ∀ c, s.resBody.read i = some c →
        (s.hostRead (BitVec.ofNat 9 (0x100 + i))).toNat = c.toNat)
    ∧ (∀ i, s.res.count.toNat ≤ i → i ≤ 254 → s.hostRead (BitVec.ofNat 9 (0x100 + i)) = 0)
    ∧ ∀ a : Addr, 0x00B ≤ a.toNat ∧ a.toNat ≤ 0x0FF ∨ a = 0x1FF → s.hostRead a = 0

/-- A host read changes no host-visible register; writing CTRL twice, or CMDR without ABORT twice, is writing it once;
where SYNC_CNT is 0 outside HUNT (R37) a second CMDR.ABORT changes at most Out; and a single CMDR.ABORT changes
nothing but Out exactly when PHASE = HUNT and SYNC_CNT = 0. (All but the last sentence of R52.) (Derived: R52.) -/
def Obligations.HostActionsAreIdempotent : Prop :=
  ∀ s : State,
    (∀ a b : Addr, ∀ t, exec (.hr a) s = .next t → t.hostRead b = s.hostRead b)
    ∧ (∀ (v : Word) (t : State), exec (.hwCtrl v) s = .next t → exec (.hwCtrl v) t = .next t)
    ∧ (∀ (v : Word) (t : State), v[3] = false → exec (.hwCmdr v) s = .next t → exec (.hwCmdr v) t = .next t)
    ∧ ((s.phase ≠ .hunt → s.syncCnt = 0) → ∀ t, exec .cmdrAbort s = .next t →
      exec .cmdrAbort t = .next { t with out := ⟨false, .none⟩ })
    ∧ (exec .cmdrAbort s = .next { s with out := ⟨false, .none⟩ } ↔ s.phase = .hunt ∧ s.syncCnt = 0)

/-- irq = IE and RES_VALID; it is bit 8 of STATUS; it is 0 after CMDR.ACK, after a CTRL write with bit 1 clear, and after
RESET; and no other event lowers it. (Stated: R35.) -/
def Obligations.IrqIsALevelOfIeAndResValid : Prop :=
  ∀ s : State, s.irq = (s.ie && s.resValid) ∧ (s.hostRead 0x001)[8] = s.irq
    ∧ ∀ (e : Event) (t : State), runEvent e s = .next t → s.irq = true →
      (t.irq = false ↔ e = .reset ∨ (∃ v : Word, e = .hostWrite 0x000 v ∧ v[1] = false)
        ∨ ∃ v : Word, e = .hostWrite 0x002 v ∧ v[0] = true ∧ (v[3] = false ∨ s.phase = .hunt))

/-- For every instruction that answers a next state: if RES_VALID goes from 1 to 0 the instruction is RESET, CMDR.ACK, or
HW.CMDR with bit 0 set; if it goes from 0 to 1 the instruction is CRCLO.BYTE, ABORT.FRAME, CMDR.ABORT, HW.CMDR with
bit 3 set, or a frame row. CMDR.ACK and RESET leave 0, an event that records a result leaves 1, and the reset state
has 0. (Stated: R21.) -/
def Obligations.OnlyAckAndResetClearResValid : Prop :=
  (∀ (i : Instr) (s t : State), exec i s = .next t → s.resValid = true → t.resValid = false →
      i = .reset ∨ i = .cmdrAck ∨ ∃ v : Word, i = .hwCmdr v ∧ v[0] = true)
    ∧ (∀ (i : Instr) (s t : State), exec i s = .next t → s.resValid = false → t.resValid = true →
      i = .abortFrame ∨ i = .cmdrAbort ∨ (∃ b, i = .crcloByte b) ∨ (∃ v : Word, i = .hwCmdr v ∧ v[3] = true)
        ∨ (∃ l w, i = .setPtt l w ∨ i = .setFreq l w ∨ i = .setMode l w ∨ i = .queryStatus l w)
        ∨ ∃ l c w, i = .unknown l c w)
    ∧ (∀ s t : State, exec .cmdrAck s = .next t ∨ exec .reset s = .next t → t.resValid = false)
    ∧ (∀ (e : Event) (s t : State), runEvent e s = .next t → t.out.done = true → t.resValid = true)
    ∧ State.reset.resValid = false

/-- For every event that answers a next state, done = 1 exactly when it is a Byte in phase CRC_LO, an Abort in a phase
other than HUNT, or a CMDR write with ABORT in a phase other than HUNT; then done_status is the status recorded and
RES_VALID is 1; otherwise done_status is 0. (Stated: R36.) -/
def Obligations.OnlyThreeKindsOfEventRecord : Prop :=
  ∀ (e : Event) (s t : State), runEvent e s = .next t →
    (t.out.done = true ↔
      ((∃ b, e = .byte b) ∧ s.phase = .crcLo) ∨ (e = .abort ∧ s.phase ≠ .hunt)
        ∨ ((∃ v : Word, e = .hostWrite 0x002 v ∧ v[3] = true) ∧ s.phase ≠ .hunt))
    ∧ (t.out.done = true → t.out.status = t.res.status ∧ t.resValid = true)
    ∧ (t.out.done = false → t.out.status = .none)

/-- From a state with RES_VALID = 1, run any events none of which is Reset or a CMDR write with ACK or CLR_OVR. Then
RES_VALID is still 1, and if OVERRUN is 0 the result record and every byte of the body window are those of the start.
(Derived: R153, R22, R133.) -/
def Obligations.ReplacementBeforeAckSetsOverrun : Prop :=
  ∀ (es : List Event) (s t : State), s.resValid = true → (∀ e ∈ es, e ≠ .reset ∧ writesCmdr 0x0003 e = false) →
    runEvents es s = .next t →
    t.resValid = true ∧ (t.overrun = false → t.res = s.res ∧ ∀ i, t.bodyWindow i = s.bodyWindow i)

/-- In every state in which PHASE = BODY implies IDX < LEN, every event decodes to an instruction whose operands are well
formed, whose row condition holds and whose encoding is the event; no other instruction has all three; and running the
event is running that instruction. (Stated: R69.) -/
def Obligations.EveryEventSelectsExactlyOneRow : Prop :=
  ∀ (s : State) (e : Event), (s.phase = .body → s.idx.toNat < s.len.toNat) →
    ∃ i : Instr, decodeEvent s.select e = .ok i ∧ i.wellFormed = true ∧ i.selected s.select = true
      ∧ encode i = eventCode e
      ∧ (∀ j : Instr, j.wellFormed = true → j.selected s.select = true → encode j = eventCode e → j = i)
      ∧ runEvent e s = exec i s

/-- For every instruction with well-formed operands and every selection context in which its row condition holds, decode
of encode is the instruction, every operand included. (Derived: R70, R69, R58.) -/
def Obligations.DecodeInvertsEncode : Prop :=
  ∀ (i : Instr) (x : Select), i.wellFormed = true → i.selected x = true → decode x (encode i) = .ok i

/-- If decode answers an instruction in a context, its operands are well formed and its row condition holds there;
encoding the instruction and decoding again gives it back; and for a frame record the encoding is the record.
(Derived: R70, R69, R64.) -/
def Obligations.DecodedInstructionsAreWellFormed : Prop :=
  ∀ (x : Select) (c : Code) (i : Instr), decode x c = .ok i →
    i.wellFormed = true ∧ i.selected x = true ∧ decode x (encode i) = .ok i
    ∧ ∀ bs : List Byte, c = .frame bs → encode i = c

/-- An event word with bit 8 set or with kind 5, 6 or 7 decodes to nothing, and running it is refused as undecodable; so
is a CMDR record in which not exactly one of bits 3 to 0 is set, a frame record without the marker, and (log entry 13)
a byte in phase BODY with IDX at or above LEN. This rests on choices of the model: log entries 11, 13. (Derived: R70,
30_encoding.md section 3.) -/
def Obligations.ReservedRecordsAreRefused : Prop :=
  ∀ s : State,
    (∀ (w : BitVec 12) (a : Addr) (v : Word), w[8] = true ∨ 5 ≤ (w >>> 9).toNat →
      ∃ e, decode s.select (.event w a v) = .error e ∧ runCode (.event w a v) s = .refused (.undecodable e))
    ∧ (∀ v : Word, v &&& 0xF ≠ 1 → v &&& 0xF ≠ 2 → v &&& 0xF ≠ 4 → v &&& 0xF ≠ 8 →
      runCode (.cmdr v) s = .refused (.undecodable .notOneCommand))
    ∧ (∀ bs : List Byte, 6 ≤ bs.length → bs.take 4 ≠ [0xA5, 0xA5, 0xA5, 0xA5] →
      runCode (.frame bs) s = .refused (.undecodable .frameNoMarker))
    ∧ ∀ b : Byte, s.phase = .body → s.len.toNat ≤ s.idx.toNat →
      runEvent (.byte b) s = .refused (.undecodable .bodyFull)

/-- In the context after reset the words 800, 000, 2A5, 213, 400, 600 decode to RESET, IDLE, HUNT.A5, HUNT.SKIP 13,
ABORT.HUNT, HW.CTRL 0; the values 1, 2, 4, 8 to the four commands; the frame words with command bytes 07, 09, 0A, 0B,
55 to the five frame rows. This rests on choices of the model: log entry 14. (Derived: R70, R69, opcode_table.json.) -/
def Obligations.TableWordsDecodeToTheirRows : Prop :=
  decodeTableWord 16 0x800 = some .reset ∧ decodeTableWord 16 0x000 = some .idle
    ∧ decodeTableWord 16 0x2A5 = some .huntA5 ∧ decodeTableWord 16 0x213 = some (.huntSkip 0x13)
    ∧ decodeTableWord 16 0x400 = some .abortHunt ∧ decodeTableWord 16 0x600 = some (.hwCtrl 0)
    ∧ decodeTableWord 16 0x0001 = some .cmdrAck ∧ decodeTableWord 16 0x0002 = some .cmdrClrOvr
    ∧ decodeTableWord 16 0x0004 = some .cmdrClrSkip ∧ decodeTableWord 16 0x0008 = some .cmdrAbort
    ∧ decodeTableWord 48 0xA5A5A5A50107 = some (.setPtt 1 [0, 0])
    ∧ decodeTableWord 48 0xA5A5A5A50109 = some (.setFreq 1 [0, 0])
    ∧ decodeTableWord 48 0xA5A5A5A5010A = some (.setMode 1 [0, 0])
    ∧ decodeTableWord 48 0xA5A5A5A5010B = some (.queryStatus 1 [0, 0])
    ∧ decodeTableWord 48 0xA5A5A5A50155 = some (.unknown 1 0x55 [0, 0])

/-- If the input is c followed by rest and c decodes in the state's context to i, then step is exec of i at the state with
input rest; with an empty input (the model's choice, log entry 2) step is exec of IDLE; and a table word that decodes
to i is run as exec of i by the first step after reset. This rests on choices of the model: log entries 1, 2, 14.
(Derived: R10, R69, R9.) -/
def Obligations.StepRunsTheDecodedInstruction : Prop :=
  (∀ (s : State) (c : Code) (rest : List Code) (i : Instr), s.input = c :: rest → decode s.select c = .ok i →
      step s = exec i { s with input := rest })
    ∧ (∀ s : State, s.input = [] → step s = exec .idle s)
    ∧ ∀ (n w : Nat) (i : Instr), decodeTableWord n w = some i →
      step (State.reset.withFetchWord n w) = exec i State.reset

/-- For every instruction but a frame row: run with operands or in a state that its row of R69 excludes, exec answers the
refusal notSelected. This rests on choices of the model: log entry 12. (Derived: 30_encoding.md section 3 (R69).) -/
def Obligations.RowsStopOutsideTheirCondition : Prop :=
  ∀ (i : Instr) (s : State), (∀ bs, encode i ≠ .frame bs) →
    i.wellFormed = false ∨ i.selected s.select = false → exec i s = .refused .notSelected

/-- State.reset satisfies the invariants of R37 and the constraint CRC_K[15] = 1 (the default CRC_K is the spec's, carried
as log entry 3 says). (Derived: R37, R40, R83.) -/
def Obligations.ResetStateHasTheInvariants : Prop :=
  State.reset.Inv ∧ State.reset.legalK

/-- For every state with the invariants (SYNC_CNT 0 outside HUNT, IDX at most LEN, what holds in each phase, canonical
buffers that hold a value wherever a rule reads, the relations between the result fields, RES_CMD = RES_BODY[0]), the
next state of a step has them too. Item 6 of R37 is stated as 'holds a value' (log entry 19); the second sentence of
item 9 is a statement of its own. (Derived: R37, R29, R14.) -/
def Obligations.EveryStepKeepsTheInvariants : Prop :=
  ∀ s t : State, s.Inv → step s = .next t → t.Inv

/-- From every state with the invariants, any sequence of events, in any order, answers a next state, which has the
invariants: the block never stops and never refuses a byte. (Derived: R10, R127, R126.) -/
def Obligations.EveryEventSequenceHasANextState : Prop :=
  ∀ (es : List Event) (s : State), s.Inv → ∃ t, runEvents es s = .next t ∧ t.Inv

/-- For each of the 26 instructions with well-formed operands, in every state with the invariants in which its row
condition holds, exec answers a next state. (Derived: R69, R127, 30_encoding.md section 3.) -/
def Obligations.EveryInstructionCompletesWhenSelected : Prop :=
  ∀ (i : Instr) (s : State), s.Inv → i.wellFormed = true → i.selected s.select = true → ∃ t, exec i s = .next t

/-- Whatever a step does, CRC_K (log entry 3) is as before, so PARAM_K reads the same for ever. (Derived: R38, R7, R56.) -/
def Obligations.NoStepChangesTheBuildParameter : Prop :=
  ∀ s t : State, step s = .next t → t.crcK = s.crcK ∧ t.hostRead 0x00A = s.hostRead 0x00A

/-- crc_bit shifts right and XORs CRC_K when bit 0 XOR the data bit is 1; crc_byte is eight crc_bit steps on bits 0 to 7;
it equals the form that XORs the byte into the low byte first, for every register, byte and CRC_K; it depends on the
byte only through c[7:0] XOR b; and the corner cases and examples of R74, R75 hold. (Stated: R74, R75.) -/
def Obligations.CrcByteIsEightBitSteps : Prop :=
  (∀ (k c : Word) (d : Bool), crcBit k c d = (c >>> 1) ^^^ (if (c.getLsbD 0 ^^ d) = true then k else 0)
        ∧ (crcBit k c d).getLsbD 15 = ((c.getLsbD 0 ^^ d) && k.getLsbD 15))
    ∧ (∀ (k c : Word) (b : Byte),
      crcByte k c b
        = crcBit k (crcBit k (crcBit k (crcBit k (crcBit k (crcBit k (crcBit k (crcBit k c (b.getLsbD 0))
            (b.getLsbD 1)) (b.getLsbD 2)) (b.getLsbD 3)) (b.getLsbD 4)) (b.getLsbD 5)) (b.getLsbD 6)) (b.getLsbD 7)
      ∧ crcByte k c b = crcByteFolded k c b)
    ∧ (∀ (k c : Word) (b : Byte), crcByte k c b = crcByte k (c ^^^ b.setWidth 16) 0)
    ∧ (∀ k : Word, crcByte k 0xFFFF 0xFF = 0x00FF ∧ crcByte k 0xFF00 0x00 = 0x00FF ∧ crcByte k 0 0 = 0
      ∧ crcBit k 0 false = 0)
    ∧ crcBit 0xA001 0xFFFF false = 0xDFFE ∧ crcBit 0xA001 0xDFFE true = 0xCFFE 
    ∧ [1, 2, 3, 4, 5, 6, 7, 8].map (crcBits 0xA001 0xFFFF 0x02)
        = [0xDFFE, 0xCFFE, 0x67FF, 0x93FE, 0x49FF, 0x84FE, 0x427F, 0x813E]
    ∧ crcByte 0xA001 0xFFFF 0x02 = 0x813E

/-- For every CRC_K, register and byte, crc_byte(c, b) = (c >> 8) XOR T[c[7:0] XOR b] with T[x] = crc_byte(0, x); and the
five entries R78 gives for A001 hold. (Stated: R78.) -/
def Obligations.CrcTableFormAgrees : Prop :=
  (∀ (k c : Word) (b : Byte), crcByte k c b = (c >>> 8) ^^^ crcByte k 0x0000 (c.setWidth 8 ^^^ b)
      ∧ crcByte k c b = crcByteTable k c b)
    ∧ crcTable 0xA001 0x00 = 0x0000 ∧ crcTable 0xA001 0x01 = 0xC0C1 ∧ crcTable 0xA001 0x02 = 0xC181
    ∧ crcTable 0xA001 0x80 = 0xA001 ∧ crcTable 0xA001 0xFF = 0x4040

/-- For all registers and bytes, crc_byte(c ^ c', b ^ b') = crc_byte(c, b) ^ crc_byte(c', b'); the register after two byte
sequences of one length differs by an amount that does not depend on the start they share. (Derived: R82 (its first
law), 40_crc.md section 2.) -/
def Obligations.CrcIsLinear : Prop :=
  (∀ (k c c' : Word) (b b' : Byte), crcByte k (c ^^^ c') (b ^^^ b') = crcByte k c b ^^^ crcByte k c' b')
    ∧ ∀ (k c c' : Word) (xs ys : List Byte), xs.length = ys.length →
      crcFrom k (c ^^^ c') (List.zipWith (· ^^^ ·) xs ys) = crcFrom k c xs ^^^ crcFrom k c' ys

/-- For a fixed data bit, crc_bit is one-to-one on the 65536 register values if and only if bit 15 of CRC_K is 1; all
three candidate values have it. (Derived: R83, R82.) -/
def Obligations.CrcStepIsOneToOneExactlyForLegalK : Prop :=
  (∀ k : Word, (∀ (c c' : Word) (d : Bool), crcBit k c d = crcBit k c' d → c = c') ↔ k.getLsbD 15 = true)
    ∧ ∀ k : Word, k = 0xA001 ∨ k = 0x8408 ∨ k = 0x8005 → k.getLsbD 15 = true

/-- For every CRC_K with bit 15 set, two byte sequences of one length that differ at most in two adjacent bytes and have
the same checksum are equal; so every single-bit and single-byte error in a sequence of at least two bytes is
detected. (Stronger than R82 (c), which enumerates three values of CRC_K.) (Derived: R82 (b), (c), R156.) -/
def Obligations.AdjacentByteErrorsChangeTheChecksum : Prop :=
  ∀ (k : Word) (xs ys : List Byte) (a b a' b' : Byte), k.getLsbD 15 = true →
    crcSeq k (xs ++ [a, b] ++ ys) = crcSeq k (xs ++ [a', b'] ++ ys) → a = a' ∧ b = b'

/-- The received checksum is 256 times the first byte plus the second, with no reversal; splitting a checksum high byte
first and assembling it gives it back; swapping the two bytes gives the same value only if they are equal. (Derived:
R41, R61, R79.) -/
def Obligations.ChecksumFieldIsHighByteFirst : Prop :=
  (∀ hi lo : Byte, (wordOfBytes hi lo).toNat = 256 * hi.toNat + lo.toNat
      ∧ (crcCmp (wordOfBytes lo hi) (wordOfBytes hi lo) = true ↔ hi = lo))
    ∧ ∀ v : Word, be16 v = [hiByte v, loByte v] ∧ wordOfBytes (hiByte v) (loByte v) = v

/-- From HUNT with SYNC_CNT = 0, a SET_PTT frame with any payload and the right checksum is reported OK with RES_CMD = 07:
every register has the value of R86 to R97, the bytes of WBUF and RES_BODY below RES_COUNT are the body, all other
bytes of both are as before, and the control bits, CRC_K, the last host read and the input are unchanged; the
consumer's view (a field of the model, log entry 8) is TRANSMIT for the payload 00, RECEIVE for 01, INVALID for any
other payload. This rests on choices of the model: log entries 8, 9. (Derived: R102, R100, 43_commands.md section 2.) -/
def Obligations.SetPttFrameIsReportedAndViewed : Prop :=
  ∀ (s : State) (payload : List Byte) (hi lo : Byte), s.phase = .hunt → s.syncCnt = 0 → payload.length ≤ 254 →
    hi ++ lo = frameCrc s.crcK (lenByteOf (0x07 :: payload)) (0x07 :: payload) →
    ∃ t, exec (.setPtt (lenByteOf (0x07 :: payload)) (payload ++ [hi, lo])) s = .next t
      ∧ GoodFrame s t (0x07 :: payload) hi lo
      ∧ t.view = .ptt (match payload with
          | [p] => if p = 0x00 then .transmit else if p = 0x01 then .receive else .invalid
          | _ => .invalid)

/-- As for SET_PTT with command type 09; the view is the pair of 32-bit big-endian fields when the payload has 8 bytes,
equal or not, and INVALID otherwise. This rests on choices of the model: log entries 8, 9. (Derived: R103, R100, R43,
43_commands.md section 2.) -/
def Obligations.SetFreqFrameIsReportedAndViewed : Prop :=
  ∀ (s : State) (payload : List Byte) (hi lo : Byte), s.phase = .hunt → s.syncCnt = 0 → payload.length ≤ 254 →
    hi ++ lo = frameCrc s.crcK (lenByteOf (0x09 :: payload)) (0x09 :: payload) →
    ∃ t, exec (.setFreq (lenByteOf (0x09 :: payload)) (payload ++ [hi, lo])) s = .next t
      ∧ GoodFrame s t (0x09 :: payload) hi lo
      ∧ t.view = .freq (match payload with
          | [a, b, c, d, e, f, g, h] => some (a ++ b ++ c ++ d, e ++ f ++ g ++ h)
          | _ => none)

/-- As for SET_PTT with command type 0A; the view is the pair of bytes when the payload has 2 bytes, unchecked, and
INVALID otherwise. This rests on choices of the model: log entries 8, 9. (Derived: R104, R100, 43_commands.md section
2.) -/
def Obligations.SetModeFrameIsReportedAndViewed : Prop :=
  ∀ (s : State) (payload : List Byte) (hi lo : Byte), s.phase = .hunt → s.syncCnt = 0 → payload.length ≤ 254 →
    hi ++ lo = frameCrc s.crcK (lenByteOf (0x0A :: payload)) (0x0A :: payload) →
    ∃ t, exec (.setMode (lenByteOf (0x0A :: payload)) (payload ++ [hi, lo])) s = .next t
      ∧ GoodFrame s t (0x0A :: payload) hi lo
      ∧ t.view = .mode (match payload with
          | [m, n] => some (m, n)
          | _ => none)

/-- As for SET_PTT with command type 0B, whatever the payload; and with every command type other than 07, 09, 0A, 0B for
the row UNKNOWN; no view. This rests on choices of the model: log entries 8, 9. (Derived: R105, R106, R64,
43_commands.md section 2.) -/
def Obligations.QueryAndUnknownFramesAreReportedWithoutView : Prop :=
  (∀ (s : State) (payload : List Byte) (hi lo : Byte), s.phase = .hunt → s.syncCnt = 0 → payload.length ≤ 254 →
    hi ++ lo = frameCrc s.crcK (lenByteOf (0x0B :: payload)) (0x0B :: payload) →
    ∃ t, exec (.queryStatus (lenByteOf (0x0B :: payload)) (payload ++ [hi, lo])) s = .next t
      ∧ GoodFrame s t (0x0B :: payload) hi lo
      ∧ t.view = .none)
    ∧ ∀ (s : State) (cmd : Byte) (payload : List Byte) (hi lo : Byte), s.phase = .hunt → s.syncCnt = 0 →
    payload.length ≤ 254 → cmdClass cmd = .unknown →
    hi ++ lo = frameCrc s.crcK (lenByteOf (cmd :: payload)) (cmd :: payload) →
    ∃ t, exec (.unknown (lenByteOf (cmd :: payload)) cmd (payload ++ [hi, lo])) s = .next t
      ∧ GoodFrame s t (cmd :: payload) hi lo
      ∧ t.view = .none

/-- In every state with the invariants, each of the five frame rows answers the state that the Byte events of its bytes
(marker, length byte, sixth byte, tail) lead to, with the field view set to what the consumer takes there; so it
changes no control bit, nor CRC_K, the last host read or the rest of the input. This rests on choices of the model:
log entries 8, 9, 10. (Derived: R57, R58, R70.) -/
def Obligations.FrameRowsAreTheirByteEvents : Prop :=
  ∀ (s : State) (lenb cmd : Byte) (tail : List Byte), s.Inv →
    ∃ u, runEvents (bytesAsEvents ([0xA5, 0xA5, 0xA5, 0xA5] ++ lenb :: cmd :: tail)) s = .next u ∧ KeptByStream s u
      ∧ (cmd = 0x07 → exec (.setPtt lenb tail) s = .next { u with view := u.consumerView })
      ∧ (cmd = 0x09 → exec (.setFreq lenb tail) s = .next { u with view := u.consumerView })
      ∧ (cmd = 0x0A → exec (.setMode lenb tail) s = .next { u with view := u.consumerView })
      ∧ (cmd = 0x0B → exec (.queryStatus lenb tail) s = .next { u with view := u.consumerView })
      ∧ exec (.unknown lenb cmd tail) s = .next { u with view := u.consumerView }

/-- From reset, for any CRC_K and STRICT = strict, feed the bytes of a buffer and one Abort. The first result of the run
is the one that the table of R113 gives for frame_decode of the buffer. (Stated: R113.) -/
def Obligations.BlockAgreesWithFrameDecode : Prop :=
  ∀ (k : Word) (strict : Bool) (raw : List Byte),
    let s : State := { State.reset with crcK := k, strict := strict }
    let es : List Event := bytesAsEvents raw ++ [.abort]
    match frameDecode k strict raw with
    | .frame cmd payload =>
      ∃ t, firstResult es s = some t ∧ t.out.status = .ok ∧ t.res.skip = false ∧ t.res.cmd = cmd
        ∧ t.res.count.toNat = 1 + payload.length
        ∧ ∀ i < payload.length, payload[i]? = some (t.bodyWindow (i + 1))
    | .badChecksum => ∃ t, firstResult es s = some t ∧ t.out.status = .badCrc ∧ t.res.skip = false
    | .emptyBody => ∃ t, firstResult es s = some t ∧ t.out.status = .emptyBody ∧ t.res.skip = false
    | .truncated =>
      firstResult (bytesAsEvents raw) s = none
      ∧ ∃ t, firstResult es s = some t ∧ t.out.status = .truncated ∧ t.res.skip = false
    | .badSync =>
      (firstResult es s = none ∧ ∃ t, runEvents es s = .next t ∧ (t.skip = true ∨ raw = []))
      ∨ ∃ t, firstResult es s = some t ∧ t.res.skip = true

/-- frame_encode fails exactly for payloads of more than 254 bytes; otherwise its bytes are the marker, the length byte n
+ 1, the command type, the payload, and the checksum of bytes 4 to 4+L high byte first; and frame_decode, strict or
not, gives the command type and payload back. (Stated: R111, R116.) -/
def Obligations.ReferenceCodecRoundTrips : Prop :=
  ∀ (k : Word) (cmd : Byte) (payload : List Byte),
    (254 < payload.length → frameEncode k cmd payload = none)
    ∧ (payload.length ≤ 254 →
      ∃ (raw : List Byte) (crc : Word), frameEncode k cmd payload = some raw
        ∧ raw = [0xA5, 0xA5, 0xA5, 0xA5, BitVec.ofNat 8 (payload.length + 1), cmd] ++ payload ++ be16 crc
        ∧ crc = crcSeq k ((raw.drop 4).take (payload.length + 2))
        ∧ ∀ strict : Bool, frameDecode k strict raw = .frame cmd payload)

/-- mode_name and mode_id invert each other on the nine ids and names; every id above 8 is named USB; every name outside
the table has id 0. (Stated: R107, R108.) -/
def Obligations.ModeTableIsABijectionWithFallback : Prop :=
  (∀ m : Byte, m.toNat ≤ 8 → modeId (modeName m) = m) ∧ (∀ m : Byte, 8 < m.toNat → modeName m = "USB")
    ∧ (∀ n ∈ ["USB", "LSB", "CWR", "CWL", "AM", "WFM", "NFM", "DIGI", "PKT"], modeName (modeId n) = n)
    ∧ ["USB", "LSB", "CWR", "CWL", "AM", "WFM", "NFM", "DIGI", "PKT"]
        = [0, 1, 2, 3, 4, 5, 6, 7, 8].map modeName
    ∧ ∀ n : String, n ∉ ["USB", "LSB", "CWR", "CWL", "AM", "WFM", "NFM", "DIGI", "PKT"] → modeId n = 0

/-- From a state with the invariants every clock cycle runs: rst alone is Reset; otherwise the events present in the order
HostWrite, Abort, Byte, or Idle. The state after is that of the events one after another, h_rdata and irq are those of
the start, at most one event has done = 1, and done of the cycle is 1 exactly if one had. (Derived: R68, R67, R136.) -/
def Obligations.CycleRecordsAtMostOneResult : Prop :=
  ∀ (s : State) (p : Ports), s.Inv →
    (p.rst = true → cycleEvents p = [.reset])
    ∧ (p.rst = false → cycleEvents p
        = if p.hWe || p.inAbort || p.inValid then
            (if p.hWe then [.hostWrite p.hAddr p.hWdata] else []) ++ (if p.inAbort then [.abort] else [])
              ++ (if p.inValid then [.byte p.inData] else [])
          else [.idle])
    ∧ ∃ t o, runCycle p s = some (t, ⟨s.hostRead p.hAddr, s.irq, o⟩) ∧ runEvents (cycleEvents p) s = .next t
      ∧ countDone (cycleEvents p) s ≤ 1 ∧ (o.done = true ↔ countDone (cycleEvents p) s = 1)
      ∧ (o.done = true → o.status = t.res.status ∧ t.resValid = true) ∧ (o.done = false → o.status = .none)

/-- If two states differ at most in elements of WBUF at or above IDX and of RES_BODY at or above RES_COUNT, then the host
reads the same at every address, and every sequence of events that runs from one runs from the other to two states
that again differ at most so, with the same Out. (Derived: R32, R19, 92_eei_decisions.md D16,
93_implementation_defined.md U11.) -/
def Obligations.StaleBufferBytesAreUnobservable : Prop :=
  ∀ s t : State, SameButStale s t → (∀ a : Addr, s.hostRead a = t.hostRead a)
    ∧ ∀ (es : List Event) (s' : State), runEvents es s = .next s' →
      ∃ t', runEvents es t = .next t' ∧ SameButStale s' t' ∧ s'.out = t'.out ∧ ∀ a : Addr, s'.hostRead a = t'.hostRead a

/-- If two states agree but for the last host read, the view and the input, then every instruction answers both alike:
next states that agree but for those fields, or the same refusal. This rests on choices of the model: log entries 1,
7, 8. (Derived: R9, R38, R52.) -/
def Obligations.OutsideFieldsDoNotReachTheBlock : Prop :=
  ∀ (i : Instr) (s t : State), s.block = t.block →
    (∃ s' t', exec i s = .next s' ∧ exec i t = .next t' ∧ s'.block = t'.block)
    ∨ ∃ r, exec i s = .refused r ∧ exec i t = .refused r
end

