-- ==== Sys2Proof/Laws/State.lean ====
section
/-! SUPPORT. One lemma per field per update of the state, so that no later proof unfolds a record update. -/

namespace Sys2Proof.Machine

variable (s : State)

@[simp] theorem State.setOut_phase (o : Out) : (s.setOut o).phase = s.phase := rfl
@[simp] theorem State.setOut_syncCnt (o : Out) : (s.setOut o).syncCnt = s.syncCnt := rfl
@[simp] theorem State.setOut_len (o : Out) : (s.setOut o).len = s.len := rfl
@[simp] theorem State.setOut_idx (o : Out) : (s.setOut o).idx = s.idx := rfl
@[simp] theorem State.setOut_crc (o : Out) : (s.setOut o).crc = s.crc := rfl
@[simp] theorem State.setOut_crcRxHi (o : Out) : (s.setOut o).crcRxHi = s.crcRxHi := rfl
@[simp] theorem State.setOut_wbuf (o : Out) : (s.setOut o).wbuf = s.wbuf := rfl
@[simp] theorem State.setOut_skip (o : Out) : (s.setOut o).skip = s.skip := rfl
@[simp] theorem State.setOut_resValid (o : Out) : (s.setOut o).resValid = s.resValid := rfl
@[simp] theorem State.setOut_overrun (o : Out) : (s.setOut o).overrun = s.overrun := rfl
@[simp] theorem State.setOut_res (o : Out) : (s.setOut o).res = s.res := rfl
@[simp] theorem State.setOut_resBody (o : Out) : (s.setOut o).resBody = s.resBody := rfl
@[simp] theorem State.setOut_strict (o : Out) : (s.setOut o).strict = s.strict := rfl
@[simp] theorem State.setOut_ie (o : Out) : (s.setOut o).ie = s.ie := rfl
@[simp] theorem State.setOut_crcK (o : Out) : (s.setOut o).crcK = s.crcK := rfl
@[simp] theorem State.setOut_out (o : Out) : (s.setOut o).out = o := rfl
@[simp] theorem State.setOut_hRdata (o : Out) : (s.setOut o).hRdata = s.hRdata := rfl
@[simp] theorem State.setOut_view (o : Out) : (s.setOut o).view = s.view := rfl
@[simp] theorem State.setOut_input (o : Out) : (s.setOut o).input = s.input := rfl

@[simp] theorem State.quiet_phase : s.quiet.phase = s.phase := rfl
@[simp] theorem State.quiet_syncCnt : s.quiet.syncCnt = s.syncCnt := rfl
@[simp] theorem State.quiet_len : s.quiet.len = s.len := rfl
@[simp] theorem State.quiet_idx : s.quiet.idx = s.idx := rfl
@[simp] theorem State.quiet_crc : s.quiet.crc = s.crc := rfl
@[simp] theorem State.quiet_crcRxHi : s.quiet.crcRxHi = s.crcRxHi := rfl
@[simp] theorem State.quiet_wbuf : s.quiet.wbuf = s.wbuf := rfl
@[simp] theorem State.quiet_skip : s.quiet.skip = s.skip := rfl
@[simp] theorem State.quiet_resValid : s.quiet.resValid = s.resValid := rfl
@[simp] theorem State.quiet_overrun : s.quiet.overrun = s.overrun := rfl
@[simp] theorem State.quiet_res : s.quiet.res = s.res := rfl
@[simp] theorem State.quiet_resBody : s.quiet.resBody = s.resBody := rfl
@[simp] theorem State.quiet_strict : s.quiet.strict = s.strict := rfl
@[simp] theorem State.quiet_ie : s.quiet.ie = s.ie := rfl
@[simp] theorem State.quiet_crcK : s.quiet.crcK = s.crcK := rfl
@[simp] theorem State.quiet_out : s.quiet.out = Out.quiet := rfl
@[simp] theorem State.quiet_hRdata : s.quiet.hRdata = s.hRdata := rfl
@[simp] theorem State.quiet_view : s.quiet.view = s.view := rfl
@[simp] theorem State.quiet_input : s.quiet.input = s.input := rfl

@[simp] theorem State.setInput_phase (l : List Code) : (s.setInput l).phase = s.phase := rfl
@[simp] theorem State.setInput_syncCnt (l : List Code) : (s.setInput l).syncCnt = s.syncCnt := rfl
@[simp] theorem State.setInput_len (l : List Code) : (s.setInput l).len = s.len := rfl
@[simp] theorem State.setInput_idx (l : List Code) : (s.setInput l).idx = s.idx := rfl
@[simp] theorem State.setInput_crc (l : List Code) : (s.setInput l).crc = s.crc := rfl
@[simp] theorem State.setInput_crcRxHi (l : List Code) : (s.setInput l).crcRxHi = s.crcRxHi := rfl
@[simp] theorem State.setInput_wbuf (l : List Code) : (s.setInput l).wbuf = s.wbuf := rfl
@[simp] theorem State.setInput_skip (l : List Code) : (s.setInput l).skip = s.skip := rfl
@[simp] theorem State.setInput_resValid (l : List Code) : (s.setInput l).resValid = s.resValid := rfl
@[simp] theorem State.setInput_overrun (l : List Code) : (s.setInput l).overrun = s.overrun := rfl
@[simp] theorem State.setInput_res (l : List Code) : (s.setInput l).res = s.res := rfl
@[simp] theorem State.setInput_resBody (l : List Code) : (s.setInput l).resBody = s.resBody := rfl
@[simp] theorem State.setInput_strict (l : List Code) : (s.setInput l).strict = s.strict := rfl
@[simp] theorem State.setInput_ie (l : List Code) : (s.setInput l).ie = s.ie := rfl
@[simp] theorem State.setInput_crcK (l : List Code) : (s.setInput l).crcK = s.crcK := rfl
@[simp] theorem State.setInput_out (l : List Code) : (s.setInput l).out = s.out := rfl
@[simp] theorem State.setInput_hRdata (l : List Code) : (s.setInput l).hRdata = s.hRdata := rfl
@[simp] theorem State.setInput_view (l : List Code) : (s.setInput l).view = s.view := rfl
@[simp] theorem State.setInput_input (l : List Code) : (s.setInput l).input = l := rfl

@[simp] theorem State.emit_phase (st : Status) (ok : Bool) (rx : Word) : (s.emit st ok rx).phase = s.phase := rfl
@[simp] theorem State.emit_syncCnt (st : Status) (ok : Bool) (rx : Word) : (s.emit st ok rx).syncCnt = s.syncCnt := rfl
@[simp] theorem State.emit_len (st : Status) (ok : Bool) (rx : Word) : (s.emit st ok rx).len = s.len := rfl
@[simp] theorem State.emit_idx (st : Status) (ok : Bool) (rx : Word) : (s.emit st ok rx).idx = s.idx := rfl
@[simp] theorem State.emit_crc (st : Status) (ok : Bool) (rx : Word) : (s.emit st ok rx).crc = s.crc := rfl
@[simp] theorem State.emit_crcRxHi (st : Status) (ok : Bool) (rx : Word) : (s.emit st ok rx).crcRxHi = s.crcRxHi := rfl
@[simp] theorem State.emit_wbuf (st : Status) (ok : Bool) (rx : Word) : (s.emit st ok rx).wbuf = s.wbuf := rfl
@[simp] theorem State.emit_skip (st : Status) (ok : Bool) (rx : Word) : (s.emit st ok rx).skip = false := rfl
@[simp] theorem State.emit_resValid (st : Status) (ok : Bool) (rx : Word) : (s.emit st ok rx).resValid = true := rfl
@[simp] theorem State.emit_overrun (st : Status) (ok : Bool) (rx : Word) : (s.emit st ok rx).overrun = overrunOnEmit s.overrun s.resValid := rfl
@[simp] theorem State.emit_res (st : Status) (ok : Bool) (rx : Word) : (s.emit st ok rx).res = s.newResult st ok rx := rfl
@[simp] theorem State.emit_resBody (st : Status) (ok : Bool) (rx : Word) : (s.emit st ok rx).resBody = copyBody s.wbuf s.resBody s.idx.toNat := rfl
@[simp] theorem State.emit_strict (st : Status) (ok : Bool) (rx : Word) : (s.emit st ok rx).strict = s.strict := rfl
@[simp] theorem State.emit_ie (st : Status) (ok : Bool) (rx : Word) : (s.emit st ok rx).ie = s.ie := rfl
@[simp] theorem State.emit_crcK (st : Status) (ok : Bool) (rx : Word) : (s.emit st ok rx).crcK = s.crcK := rfl
@[simp] theorem State.emit_out (st : Status) (ok : Bool) (rx : Word) : (s.emit st ok rx).out = ⟨true, st⟩ := rfl
@[simp] theorem State.emit_hRdata (st : Status) (ok : Bool) (rx : Word) : (s.emit st ok rx).hRdata = s.hRdata := rfl
@[simp] theorem State.emit_view (st : Status) (ok : Bool) (rx : Word) : (s.emit st ok rx).view = s.view := rfl
@[simp] theorem State.emit_input (st : Status) (ok : Bool) (rx : Word) : (s.emit st ok rx).input = s.input := rfl

@[simp] theorem State.endFrame_phase (st : Status) (ok : Bool) (rx : Word) : (s.endFrame st ok rx).phase = .hunt := rfl
@[simp] theorem State.endFrame_syncCnt (st : Status) (ok : Bool) (rx : Word) : (s.endFrame st ok rx).syncCnt = s.syncCnt := rfl
@[simp] theorem State.endFrame_len (st : Status) (ok : Bool) (rx : Word) : (s.endFrame st ok rx).len = s.len := rfl
@[simp] theorem State.endFrame_idx (st : Status) (ok : Bool) (rx : Word) : (s.endFrame st ok rx).idx = s.idx := rfl
@[simp] theorem State.endFrame_crc (st : Status) (ok : Bool) (rx : Word) : (s.endFrame st ok rx).crc = s.crc := rfl
@[simp] theorem State.endFrame_crcRxHi (st : Status) (ok : Bool) (rx : Word) : (s.endFrame st ok rx).crcRxHi = s.crcRxHi := rfl
@[simp] theorem State.endFrame_wbuf (st : Status) (ok : Bool) (rx : Word) : (s.endFrame st ok rx).wbuf = s.wbuf := rfl
@[simp] theorem State.endFrame_skip (st : Status) (ok : Bool) (rx : Word) : (s.endFrame st ok rx).skip = false := rfl
@[simp] theorem State.endFrame_resValid (st : Status) (ok : Bool) (rx : Word) : (s.endFrame st ok rx).resValid = true := rfl
@[simp] theorem State.endFrame_overrun (st : Status) (ok : Bool) (rx : Word) : (s.endFrame st ok rx).overrun = overrunOnEmit s.overrun s.resValid := rfl
@[simp] theorem State.endFrame_res (st : Status) (ok : Bool) (rx : Word) : (s.endFrame st ok rx).res = s.newResult st ok rx := rfl
@[simp] theorem State.endFrame_resBody (st : Status) (ok : Bool) (rx : Word) : (s.endFrame st ok rx).resBody = copyBody s.wbuf s.resBody s.idx.toNat := rfl
@[simp] theorem State.endFrame_strict (st : Status) (ok : Bool) (rx : Word) : (s.endFrame st ok rx).strict = s.strict := rfl
@[simp] theorem State.endFrame_ie (st : Status) (ok : Bool) (rx : Word) : (s.endFrame st ok rx).ie = s.ie := rfl
@[simp] theorem State.endFrame_crcK (st : Status) (ok : Bool) (rx : Word) : (s.endFrame st ok rx).crcK = s.crcK := rfl
@[simp] theorem State.endFrame_out (st : Status) (ok : Bool) (rx : Word) : (s.endFrame st ok rx).out = ⟨true, st⟩ := rfl
@[simp] theorem State.endFrame_hRdata (st : Status) (ok : Bool) (rx : Word) : (s.endFrame st ok rx).hRdata = s.hRdata := rfl
@[simp] theorem State.endFrame_view (st : Status) (ok : Bool) (rx : Word) : (s.endFrame st ok rx).view = s.view := rfl
@[simp] theorem State.endFrame_input (st : Status) (ok : Bool) (rx : Word) : (s.endFrame st ok rx).input = s.input := rfl

@[simp] theorem State.ack_phase : s.ack.phase = s.phase := rfl
@[simp] theorem State.ack_syncCnt : s.ack.syncCnt = s.syncCnt := rfl
@[simp] theorem State.ack_len : s.ack.len = s.len := rfl
@[simp] theorem State.ack_idx : s.ack.idx = s.idx := rfl
@[simp] theorem State.ack_crc : s.ack.crc = s.crc := rfl
@[simp] theorem State.ack_crcRxHi : s.ack.crcRxHi = s.crcRxHi := rfl
@[simp] theorem State.ack_wbuf : s.ack.wbuf = s.wbuf := rfl
@[simp] theorem State.ack_skip : s.ack.skip = s.skip := rfl
@[simp] theorem State.ack_resValid : s.ack.resValid = false := rfl
@[simp] theorem State.ack_overrun : s.ack.overrun = s.overrun := rfl
@[simp] theorem State.ack_res : s.ack.res = s.res := rfl
@[simp] theorem State.ack_resBody : s.ack.resBody = s.resBody := rfl
@[simp] theorem State.ack_strict : s.ack.strict = s.strict := rfl
@[simp] theorem State.ack_ie : s.ack.ie = s.ie := rfl
@[simp] theorem State.ack_crcK : s.ack.crcK = s.crcK := rfl
@[simp] theorem State.ack_out : s.ack.out = s.out := rfl
@[simp] theorem State.ack_hRdata : s.ack.hRdata = s.hRdata := rfl
@[simp] theorem State.ack_view : s.ack.view = s.view := rfl
@[simp] theorem State.ack_input : s.ack.input = s.input := rfl

@[simp] theorem State.clrOvr_phase : s.clrOvr.phase = s.phase := rfl
@[simp] theorem State.clrOvr_syncCnt : s.clrOvr.syncCnt = s.syncCnt := rfl
@[simp] theorem State.clrOvr_len : s.clrOvr.len = s.len := rfl
@[simp] theorem State.clrOvr_idx : s.clrOvr.idx = s.idx := rfl
@[simp] theorem State.clrOvr_crc : s.clrOvr.crc = s.crc := rfl
@[simp] theorem State.clrOvr_crcRxHi : s.clrOvr.crcRxHi = s.crcRxHi := rfl
@[simp] theorem State.clrOvr_wbuf : s.clrOvr.wbuf = s.wbuf := rfl
@[simp] theorem State.clrOvr_skip : s.clrOvr.skip = s.skip := rfl
@[simp] theorem State.clrOvr_resValid : s.clrOvr.resValid = s.resValid := rfl
@[simp] theorem State.clrOvr_overrun : s.clrOvr.overrun = false := rfl
@[simp] theorem State.clrOvr_res : s.clrOvr.res = s.res := rfl
@[simp] theorem State.clrOvr_resBody : s.clrOvr.resBody = s.resBody := rfl
@[simp] theorem State.clrOvr_strict : s.clrOvr.strict = s.strict := rfl
@[simp] theorem State.clrOvr_ie : s.clrOvr.ie = s.ie := rfl
@[simp] theorem State.clrOvr_crcK : s.clrOvr.crcK = s.crcK := rfl
@[simp] theorem State.clrOvr_out : s.clrOvr.out = s.out := rfl
@[simp] theorem State.clrOvr_hRdata : s.clrOvr.hRdata = s.hRdata := rfl
@[simp] theorem State.clrOvr_view : s.clrOvr.view = s.view := rfl
@[simp] theorem State.clrOvr_input : s.clrOvr.input = s.input := rfl

@[simp] theorem State.clrSkip_phase : s.clrSkip.phase = s.phase := rfl
@[simp] theorem State.clrSkip_syncCnt : s.clrSkip.syncCnt = s.syncCnt := rfl
@[simp] theorem State.clrSkip_len : s.clrSkip.len = s.len := rfl
@[simp] theorem State.clrSkip_idx : s.clrSkip.idx = s.idx := rfl
@[simp] theorem State.clrSkip_crc : s.clrSkip.crc = s.crc := rfl
@[simp] theorem State.clrSkip_crcRxHi : s.clrSkip.crcRxHi = s.crcRxHi := rfl
@[simp] theorem State.clrSkip_wbuf : s.clrSkip.wbuf = s.wbuf := rfl
@[simp] theorem State.clrSkip_skip : s.clrSkip.skip = false := rfl
@[simp] theorem State.clrSkip_resValid : s.clrSkip.resValid = s.resValid := rfl
@[simp] theorem State.clrSkip_overrun : s.clrSkip.overrun = s.overrun := rfl
@[simp] theorem State.clrSkip_res : s.clrSkip.res = s.res := rfl
@[simp] theorem State.clrSkip_resBody : s.clrSkip.resBody = s.resBody := rfl
@[simp] theorem State.clrSkip_strict : s.clrSkip.strict = s.strict := rfl
@[simp] theorem State.clrSkip_ie : s.clrSkip.ie = s.ie := rfl
@[simp] theorem State.clrSkip_crcK : s.clrSkip.crcK = s.crcK := rfl
@[simp] theorem State.clrSkip_out : s.clrSkip.out = s.out := rfl
@[simp] theorem State.clrSkip_hRdata : s.clrSkip.hRdata = s.hRdata := rfl
@[simp] theorem State.clrSkip_view : s.clrSkip.view = s.view := rfl
@[simp] theorem State.clrSkip_input : s.clrSkip.input = s.input := rfl

@[simp] theorem State.abortHunt_phase : s.abortHunt.phase = s.phase := rfl
@[simp] theorem State.abortHunt_syncCnt : s.abortHunt.syncCnt = 0 := rfl
@[simp] theorem State.abortHunt_len : s.abortHunt.len = s.len := rfl
@[simp] theorem State.abortHunt_idx : s.abortHunt.idx = s.idx := rfl
@[simp] theorem State.abortHunt_crc : s.abortHunt.crc = s.crc := rfl
@[simp] theorem State.abortHunt_crcRxHi : s.abortHunt.crcRxHi = s.crcRxHi := rfl
@[simp] theorem State.abortHunt_wbuf : s.abortHunt.wbuf = s.wbuf := rfl
@[simp] theorem State.abortHunt_skip : s.abortHunt.skip = skipOnAbort s.skip s.syncCnt := rfl
@[simp] theorem State.abortHunt_resValid : s.abortHunt.resValid = s.resValid := rfl
@[simp] theorem State.abortHunt_overrun : s.abortHunt.overrun = s.overrun := rfl
@[simp] theorem State.abortHunt_res : s.abortHunt.res = s.res := rfl
@[simp] theorem State.abortHunt_resBody : s.abortHunt.resBody = s.resBody := rfl
@[simp] theorem State.abortHunt_strict : s.abortHunt.strict = s.strict := rfl
@[simp] theorem State.abortHunt_ie : s.abortHunt.ie = s.ie := rfl
@[simp] theorem State.abortHunt_crcK : s.abortHunt.crcK = s.crcK := rfl
@[simp] theorem State.abortHunt_out : s.abortHunt.out = Out.quiet := rfl
@[simp] theorem State.abortHunt_hRdata : s.abortHunt.hRdata = s.hRdata := rfl
@[simp] theorem State.abortHunt_view : s.abortHunt.view = s.view := rfl
@[simp] theorem State.abortHunt_input : s.abortHunt.input = s.input := rfl

@[simp] theorem State.abortFrame_phase : s.abortFrame.phase = .hunt := rfl
@[simp] theorem State.abortFrame_syncCnt : s.abortFrame.syncCnt = s.syncCnt := rfl
@[simp] theorem State.abortFrame_len : s.abortFrame.len = s.len := rfl
@[simp] theorem State.abortFrame_idx : s.abortFrame.idx = s.idx := rfl
@[simp] theorem State.abortFrame_crc : s.abortFrame.crc = s.crc := rfl
@[simp] theorem State.abortFrame_crcRxHi : s.abortFrame.crcRxHi = s.crcRxHi := rfl
@[simp] theorem State.abortFrame_wbuf : s.abortFrame.wbuf = s.wbuf := rfl
@[simp] theorem State.abortFrame_skip : s.abortFrame.skip = false := rfl
@[simp] theorem State.abortFrame_resValid : s.abortFrame.resValid = true := rfl
@[simp] theorem State.abortFrame_overrun : s.abortFrame.overrun = overrunOnEmit s.overrun s.resValid := rfl
@[simp] theorem State.abortFrame_res : s.abortFrame.res = s.newResult .truncated false 0x0000 := rfl
@[simp] theorem State.abortFrame_resBody : s.abortFrame.resBody = copyBody s.wbuf s.resBody s.idx.toNat := rfl
@[simp] theorem State.abortFrame_strict : s.abortFrame.strict = s.strict := rfl
@[simp] theorem State.abortFrame_ie : s.abortFrame.ie = s.ie := rfl
@[simp] theorem State.abortFrame_crcK : s.abortFrame.crcK = s.crcK := rfl
@[simp] theorem State.abortFrame_out : s.abortFrame.out = ⟨true, .truncated⟩ := rfl
@[simp] theorem State.abortFrame_hRdata : s.abortFrame.hRdata = s.hRdata := rfl
@[simp] theorem State.abortFrame_view : s.abortFrame.view = s.view := rfl
@[simp] theorem State.abortFrame_input : s.abortFrame.input = s.input := rfl

@[simp] theorem State.countSync_phase : s.countSync.phase = s.phase := rfl
@[simp] theorem State.countSync_syncCnt : s.countSync.syncCnt = s.syncCnt + 1 := rfl
@[simp] theorem State.countSync_len : s.countSync.len = s.len := rfl
@[simp] theorem State.countSync_idx : s.countSync.idx = s.idx := rfl
@[simp] theorem State.countSync_crc : s.countSync.crc = s.crc := rfl
@[simp] theorem State.countSync_crcRxHi : s.countSync.crcRxHi = s.crcRxHi := rfl
@[simp] theorem State.countSync_wbuf : s.countSync.wbuf = s.wbuf := rfl
@[simp] theorem State.countSync_skip : s.countSync.skip = s.skip := rfl
@[simp] theorem State.countSync_resValid : s.countSync.resValid = s.resValid := rfl
@[simp] theorem State.countSync_overrun : s.countSync.overrun = s.overrun := rfl
@[simp] theorem State.countSync_res : s.countSync.res = s.res := rfl
@[simp] theorem State.countSync_resBody : s.countSync.resBody = s.resBody := rfl
@[simp] theorem State.countSync_strict : s.countSync.strict = s.strict := rfl
@[simp] theorem State.countSync_ie : s.countSync.ie = s.ie := rfl
@[simp] theorem State.countSync_crcK : s.countSync.crcK = s.crcK := rfl
@[simp] theorem State.countSync_out : s.countSync.out = Out.quiet := rfl
@[simp] theorem State.countSync_hRdata : s.countSync.hRdata = s.hRdata := rfl
@[simp] theorem State.countSync_view : s.countSync.view = s.view := rfl
@[simp] theorem State.countSync_input : s.countSync.input = s.input := rfl

@[simp] theorem State.lock_phase : s.lock.phase = .len := rfl
@[simp] theorem State.lock_syncCnt : s.lock.syncCnt = 0 := rfl
@[simp] theorem State.lock_len : s.lock.len = 0x00 := rfl
@[simp] theorem State.lock_idx : s.lock.idx = 0 := rfl
@[simp] theorem State.lock_crc : s.lock.crc = crcInit := rfl
@[simp] theorem State.lock_crcRxHi : s.lock.crcRxHi = 0x00 := rfl
@[simp] theorem State.lock_wbuf : s.lock.wbuf = s.wbuf := rfl
@[simp] theorem State.lock_skip : s.lock.skip = s.skip := rfl
@[simp] theorem State.lock_resValid : s.lock.resValid = s.resValid := rfl
@[simp] theorem State.lock_overrun : s.lock.overrun = s.overrun := rfl
@[simp] theorem State.lock_res : s.lock.res = s.res := rfl
@[simp] theorem State.lock_resBody : s.lock.resBody = s.resBody := rfl
@[simp] theorem State.lock_strict : s.lock.strict = s.strict := rfl
@[simp] theorem State.lock_ie : s.lock.ie = s.ie := rfl
@[simp] theorem State.lock_crcK : s.lock.crcK = s.crcK := rfl
@[simp] theorem State.lock_out : s.lock.out = Out.quiet := rfl
@[simp] theorem State.lock_hRdata : s.lock.hRdata = s.hRdata := rfl
@[simp] theorem State.lock_view : s.lock.view = s.view := rfl
@[simp] theorem State.lock_input : s.lock.input = s.input := rfl

@[simp] theorem State.skipByte_phase : s.skipByte.phase = s.phase := rfl
@[simp] theorem State.skipByte_syncCnt : s.skipByte.syncCnt = 0 := rfl
@[simp] theorem State.skipByte_len : s.skipByte.len = s.len := rfl
@[simp] theorem State.skipByte_idx : s.skipByte.idx = s.idx := rfl
@[simp] theorem State.skipByte_crc : s.skipByte.crc = s.crc := rfl
@[simp] theorem State.skipByte_crcRxHi : s.skipByte.crcRxHi = s.crcRxHi := rfl
@[simp] theorem State.skipByte_wbuf : s.skipByte.wbuf = s.wbuf := rfl
@[simp] theorem State.skipByte_skip : s.skipByte.skip = true := rfl
@[simp] theorem State.skipByte_resValid : s.skipByte.resValid = s.resValid := rfl
@[simp] theorem State.skipByte_overrun : s.skipByte.overrun = s.overrun := rfl
@[simp] theorem State.skipByte_res : s.skipByte.res = s.res := rfl
@[simp] theorem State.skipByte_resBody : s.skipByte.resBody = s.resBody := rfl
@[simp] theorem State.skipByte_strict : s.skipByte.strict = s.strict := rfl
@[simp] theorem State.skipByte_ie : s.skipByte.ie = s.ie := rfl
@[simp] theorem State.skipByte_crcK : s.skipByte.crcK = s.crcK := rfl
@[simp] theorem State.skipByte_out : s.skipByte.out = Out.quiet := rfl
@[simp] theorem State.skipByte_hRdata : s.skipByte.hRdata = s.hRdata := rfl
@[simp] theorem State.skipByte_view : s.skipByte.view = s.view := rfl
@[simp] theorem State.skipByte_input : s.skipByte.input = s.input := rfl

@[simp] theorem State.takeLen_phase (b : Byte) : (s.takeLen b).phase = .body := rfl
@[simp] theorem State.takeLen_syncCnt (b : Byte) : (s.takeLen b).syncCnt = s.syncCnt := rfl
@[simp] theorem State.takeLen_len (b : Byte) : (s.takeLen b).len = b := rfl
@[simp] theorem State.takeLen_idx (b : Byte) : (s.takeLen b).idx = s.idx := rfl
@[simp] theorem State.takeLen_crc (b : Byte) : (s.takeLen b).crc = crcByte s.crcK s.crc b := rfl
@[simp] theorem State.takeLen_crcRxHi (b : Byte) : (s.takeLen b).crcRxHi = s.crcRxHi := rfl
@[simp] theorem State.takeLen_wbuf (b : Byte) : (s.takeLen b).wbuf = s.wbuf := rfl
@[simp] theorem State.takeLen_skip (b : Byte) : (s.takeLen b).skip = s.skip := rfl
@[simp] theorem State.takeLen_resValid (b : Byte) : (s.takeLen b).resValid = s.resValid := rfl
@[simp] theorem State.takeLen_overrun (b : Byte) : (s.takeLen b).overrun = s.overrun := rfl
@[simp] theorem State.takeLen_res (b : Byte) : (s.takeLen b).res = s.res := rfl
@[simp] theorem State.takeLen_resBody (b : Byte) : (s.takeLen b).resBody = s.resBody := rfl
@[simp] theorem State.takeLen_strict (b : Byte) : (s.takeLen b).strict = s.strict := rfl
@[simp] theorem State.takeLen_ie (b : Byte) : (s.takeLen b).ie = s.ie := rfl
@[simp] theorem State.takeLen_crcK (b : Byte) : (s.takeLen b).crcK = s.crcK := rfl
@[simp] theorem State.takeLen_out (b : Byte) : (s.takeLen b).out = Out.quiet := rfl
@[simp] theorem State.takeLen_hRdata (b : Byte) : (s.takeLen b).hRdata = s.hRdata := rfl
@[simp] theorem State.takeLen_view (b : Byte) : (s.takeLen b).view = s.view := rfl
@[simp] theorem State.takeLen_input (b : Byte) : (s.takeLen b).input = s.input := rfl

@[simp] theorem State.takeLenZero_phase : s.takeLenZero.phase = .crcHi := rfl
@[simp] theorem State.takeLenZero_syncCnt : s.takeLenZero.syncCnt = s.syncCnt := rfl
@[simp] theorem State.takeLenZero_len : s.takeLenZero.len = 0x00 := rfl
@[simp] theorem State.takeLenZero_idx : s.takeLenZero.idx = s.idx := rfl
@[simp] theorem State.takeLenZero_crc : s.takeLenZero.crc = crcByte s.crcK s.crc 0x00 := rfl
@[simp] theorem State.takeLenZero_crcRxHi : s.takeLenZero.crcRxHi = s.crcRxHi := rfl
@[simp] theorem State.takeLenZero_wbuf : s.takeLenZero.wbuf = s.wbuf := rfl
@[simp] theorem State.takeLenZero_skip : s.takeLenZero.skip = s.skip := rfl
@[simp] theorem State.takeLenZero_resValid : s.takeLenZero.resValid = s.resValid := rfl
@[simp] theorem State.takeLenZero_overrun : s.takeLenZero.overrun = s.overrun := rfl
@[simp] theorem State.takeLenZero_res : s.takeLenZero.res = s.res := rfl
@[simp] theorem State.takeLenZero_resBody : s.takeLenZero.resBody = s.resBody := rfl
@[simp] theorem State.takeLenZero_strict : s.takeLenZero.strict = s.strict := rfl
@[simp] theorem State.takeLenZero_ie : s.takeLenZero.ie = s.ie := rfl
@[simp] theorem State.takeLenZero_crcK : s.takeLenZero.crcK = s.crcK := rfl
@[simp] theorem State.takeLenZero_out : s.takeLenZero.out = Out.quiet := rfl
@[simp] theorem State.takeLenZero_hRdata : s.takeLenZero.hRdata = s.hRdata := rfl
@[simp] theorem State.takeLenZero_view : s.takeLenZero.view = s.view := rfl
@[simp] theorem State.takeLenZero_input : s.takeLenZero.input = s.input := rfl

@[simp] theorem State.takeBody_phase (b : Byte) (p : Phase) : (s.takeBody b p).phase = p := rfl
@[simp] theorem State.takeBody_syncCnt (b : Byte) (p : Phase) : (s.takeBody b p).syncCnt = s.syncCnt := rfl
@[simp] theorem State.takeBody_len (b : Byte) (p : Phase) : (s.takeBody b p).len = s.len := rfl
@[simp] theorem State.takeBody_idx (b : Byte) (p : Phase) : (s.takeBody b p).idx = s.idx + 1 := rfl
@[simp] theorem State.takeBody_crc (b : Byte) (p : Phase) : (s.takeBody b p).crc = crcByte s.crcK s.crc b := rfl
@[simp] theorem State.takeBody_crcRxHi (b : Byte) (p : Phase) : (s.takeBody b p).crcRxHi = s.crcRxHi := rfl
@[simp] theorem State.takeBody_wbuf (b : Byte) (p : Phase) : (s.takeBody b p).wbuf = s.wbuf.write s.idx.toNat b := rfl
@[simp] theorem State.takeBody_skip (b : Byte) (p : Phase) : (s.takeBody b p).skip = s.skip := rfl
@[simp] theorem State.takeBody_resValid (b : Byte) (p : Phase) : (s.takeBody b p).resValid = s.resValid := rfl
@[simp] theorem State.takeBody_overrun (b : Byte) (p : Phase) : (s.takeBody b p).overrun = s.overrun := rfl
@[simp] theorem State.takeBody_res (b : Byte) (p : Phase) : (s.takeBody b p).res = s.res := rfl
@[simp] theorem State.takeBody_resBody (b : Byte) (p : Phase) : (s.takeBody b p).resBody = s.resBody := rfl
@[simp] theorem State.takeBody_strict (b : Byte) (p : Phase) : (s.takeBody b p).strict = s.strict := rfl
@[simp] theorem State.takeBody_ie (b : Byte) (p : Phase) : (s.takeBody b p).ie = s.ie := rfl
@[simp] theorem State.takeBody_crcK (b : Byte) (p : Phase) : (s.takeBody b p).crcK = s.crcK := rfl
@[simp] theorem State.takeBody_out (b : Byte) (p : Phase) : (s.takeBody b p).out = Out.quiet := rfl
@[simp] theorem State.takeBody_hRdata (b : Byte) (p : Phase) : (s.takeBody b p).hRdata = s.hRdata := rfl
@[simp] theorem State.takeBody_view (b : Byte) (p : Phase) : (s.takeBody b p).view = s.view := rfl
@[simp] theorem State.takeBody_input (b : Byte) (p : Phase) : (s.takeBody b p).input = s.input := rfl

@[simp] theorem State.takeCrcHi_phase (b : Byte) : (s.takeCrcHi b).phase = .crcLo := rfl
@[simp] theorem State.takeCrcHi_syncCnt (b : Byte) : (s.takeCrcHi b).syncCnt = s.syncCnt := rfl
@[simp] theorem State.takeCrcHi_len (b : Byte) : (s.takeCrcHi b).len = s.len := rfl
@[simp] theorem State.takeCrcHi_idx (b : Byte) : (s.takeCrcHi b).idx = s.idx := rfl
@[simp] theorem State.takeCrcHi_crc (b : Byte) : (s.takeCrcHi b).crc = s.crc := rfl
@[simp] theorem State.takeCrcHi_crcRxHi (b : Byte) : (s.takeCrcHi b).crcRxHi = b := rfl
@[simp] theorem State.takeCrcHi_wbuf (b : Byte) : (s.takeCrcHi b).wbuf = s.wbuf := rfl
@[simp] theorem State.takeCrcHi_skip (b : Byte) : (s.takeCrcHi b).skip = s.skip := rfl
@[simp] theorem State.takeCrcHi_resValid (b : Byte) : (s.takeCrcHi b).resValid = s.resValid := rfl
@[simp] theorem State.takeCrcHi_overrun (b : Byte) : (s.takeCrcHi b).overrun = s.overrun := rfl
@[simp] theorem State.takeCrcHi_res (b : Byte) : (s.takeCrcHi b).res = s.res := rfl
@[simp] theorem State.takeCrcHi_resBody (b : Byte) : (s.takeCrcHi b).resBody = s.resBody := rfl
@[simp] theorem State.takeCrcHi_strict (b : Byte) : (s.takeCrcHi b).strict = s.strict := rfl
@[simp] theorem State.takeCrcHi_ie (b : Byte) : (s.takeCrcHi b).ie = s.ie := rfl
@[simp] theorem State.takeCrcHi_crcK (b : Byte) : (s.takeCrcHi b).crcK = s.crcK := rfl
@[simp] theorem State.takeCrcHi_out (b : Byte) : (s.takeCrcHi b).out = Out.quiet := rfl
@[simp] theorem State.takeCrcHi_hRdata (b : Byte) : (s.takeCrcHi b).hRdata = s.hRdata := rfl
@[simp] theorem State.takeCrcHi_view (b : Byte) : (s.takeCrcHi b).view = s.view := rfl
@[simp] theorem State.takeCrcHi_input (b : Byte) : (s.takeCrcHi b).input = s.input := rfl

@[simp] theorem State.writeCtrl_phase (v : Word) : (s.writeCtrl v).phase = s.phase := rfl
@[simp] theorem State.writeCtrl_syncCnt (v : Word) : (s.writeCtrl v).syncCnt = s.syncCnt := rfl
@[simp] theorem State.writeCtrl_len (v : Word) : (s.writeCtrl v).len = s.len := rfl
@[simp] theorem State.writeCtrl_idx (v : Word) : (s.writeCtrl v).idx = s.idx := rfl
@[simp] theorem State.writeCtrl_crc (v : Word) : (s.writeCtrl v).crc = s.crc := rfl
@[simp] theorem State.writeCtrl_crcRxHi (v : Word) : (s.writeCtrl v).crcRxHi = s.crcRxHi := rfl
@[simp] theorem State.writeCtrl_wbuf (v : Word) : (s.writeCtrl v).wbuf = s.wbuf := rfl
@[simp] theorem State.writeCtrl_skip (v : Word) : (s.writeCtrl v).skip = s.skip := rfl
@[simp] theorem State.writeCtrl_resValid (v : Word) : (s.writeCtrl v).resValid = s.resValid := rfl
@[simp] theorem State.writeCtrl_overrun (v : Word) : (s.writeCtrl v).overrun = s.overrun := rfl
@[simp] theorem State.writeCtrl_res (v : Word) : (s.writeCtrl v).res = s.res := rfl
@[simp] theorem State.writeCtrl_resBody (v : Word) : (s.writeCtrl v).resBody = s.resBody := rfl
@[simp] theorem State.writeCtrl_strict (v : Word) : (s.writeCtrl v).strict = v[0] := rfl
@[simp] theorem State.writeCtrl_ie (v : Word) : (s.writeCtrl v).ie = v[1] := rfl
@[simp] theorem State.writeCtrl_crcK (v : Word) : (s.writeCtrl v).crcK = s.crcK := rfl
@[simp] theorem State.writeCtrl_out (v : Word) : (s.writeCtrl v).out = Out.quiet := rfl
@[simp] theorem State.writeCtrl_hRdata (v : Word) : (s.writeCtrl v).hRdata = s.hRdata := rfl
@[simp] theorem State.writeCtrl_view (v : Word) : (s.writeCtrl v).view = s.view := rfl
@[simp] theorem State.writeCtrl_input (v : Word) : (s.writeCtrl v).input = s.input := rfl

@[simp] theorem State.readReg_phase (a : Addr) : (s.readReg a).phase = s.phase := rfl
@[simp] theorem State.readReg_syncCnt (a : Addr) : (s.readReg a).syncCnt = s.syncCnt := rfl
@[simp] theorem State.readReg_len (a : Addr) : (s.readReg a).len = s.len := rfl
@[simp] theorem State.readReg_idx (a : Addr) : (s.readReg a).idx = s.idx := rfl
@[simp] theorem State.readReg_crc (a : Addr) : (s.readReg a).crc = s.crc := rfl
@[simp] theorem State.readReg_crcRxHi (a : Addr) : (s.readReg a).crcRxHi = s.crcRxHi := rfl
@[simp] theorem State.readReg_wbuf (a : Addr) : (s.readReg a).wbuf = s.wbuf := rfl
@[simp] theorem State.readReg_skip (a : Addr) : (s.readReg a).skip = s.skip := rfl
@[simp] theorem State.readReg_resValid (a : Addr) : (s.readReg a).resValid = s.resValid := rfl
@[simp] theorem State.readReg_overrun (a : Addr) : (s.readReg a).overrun = s.overrun := rfl
@[simp] theorem State.readReg_res (a : Addr) : (s.readReg a).res = s.res := rfl
@[simp] theorem State.readReg_resBody (a : Addr) : (s.readReg a).resBody = s.resBody := rfl
@[simp] theorem State.readReg_strict (a : Addr) : (s.readReg a).strict = s.strict := rfl
@[simp] theorem State.readReg_ie (a : Addr) : (s.readReg a).ie = s.ie := rfl
@[simp] theorem State.readReg_crcK (a : Addr) : (s.readReg a).crcK = s.crcK := rfl
@[simp] theorem State.readReg_out (a : Addr) : (s.readReg a).out = s.out := rfl
@[simp] theorem State.readReg_hRdata (a : Addr) : (s.readReg a).hRdata = s.hostRead a := rfl
@[simp] theorem State.readReg_view (a : Addr) : (s.readReg a).view = s.view := rfl
@[simp] theorem State.readReg_input (a : Addr) : (s.readReg a).input = s.input := rfl

@[simp] theorem State.resetEvent_phase : s.resetEvent.phase = .hunt := rfl
@[simp] theorem State.resetEvent_syncCnt : s.resetEvent.syncCnt = 0 := rfl
@[simp] theorem State.resetEvent_len : s.resetEvent.len = 0x00 := rfl
@[simp] theorem State.resetEvent_idx : s.resetEvent.idx = 0 := rfl
@[simp] theorem State.resetEvent_crc : s.resetEvent.crc = 0xFFFF := rfl
@[simp] theorem State.resetEvent_crcRxHi : s.resetEvent.crcRxHi = 0x00 := rfl
@[simp] theorem State.resetEvent_wbuf : s.resetEvent.wbuf = s.wbuf := rfl
@[simp] theorem State.resetEvent_skip : s.resetEvent.skip = false := rfl
@[simp] theorem State.resetEvent_resValid : s.resetEvent.resValid = false := rfl
@[simp] theorem State.resetEvent_overrun : s.resetEvent.overrun = false := rfl
@[simp] theorem State.resetEvent_res : s.resetEvent.res = Result.reset := rfl
@[simp] theorem State.resetEvent_resBody : s.resetEvent.resBody = s.resBody := rfl
@[simp] theorem State.resetEvent_strict : s.resetEvent.strict = true := rfl
@[simp] theorem State.resetEvent_ie : s.resetEvent.ie = false := rfl
@[simp] theorem State.resetEvent_crcK : s.resetEvent.crcK = s.crcK := rfl
@[simp] theorem State.resetEvent_out : s.resetEvent.out = Out.quiet := rfl
@[simp] theorem State.resetEvent_hRdata : s.resetEvent.hRdata = s.hRdata := rfl
@[simp] theorem State.resetEvent_view : s.resetEvent.view = s.view := rfl
@[simp] theorem State.resetEvent_input : s.resetEvent.input = s.input := rfl

@[simp] theorem State.takeView_phase : s.takeView.phase = s.phase := rfl
@[simp] theorem State.takeView_syncCnt : s.takeView.syncCnt = s.syncCnt := rfl
@[simp] theorem State.takeView_len : s.takeView.len = s.len := rfl
@[simp] theorem State.takeView_idx : s.takeView.idx = s.idx := rfl
@[simp] theorem State.takeView_crc : s.takeView.crc = s.crc := rfl
@[simp] theorem State.takeView_crcRxHi : s.takeView.crcRxHi = s.crcRxHi := rfl
@[simp] theorem State.takeView_wbuf : s.takeView.wbuf = s.wbuf := rfl
@[simp] theorem State.takeView_skip : s.takeView.skip = s.skip := rfl
@[simp] theorem State.takeView_resValid : s.takeView.resValid = s.resValid := rfl
@[simp] theorem State.takeView_overrun : s.takeView.overrun = s.overrun := rfl
@[simp] theorem State.takeView_res : s.takeView.res = s.res := rfl
@[simp] theorem State.takeView_resBody : s.takeView.resBody = s.resBody := rfl
@[simp] theorem State.takeView_strict : s.takeView.strict = s.strict := rfl
@[simp] theorem State.takeView_ie : s.takeView.ie = s.ie := rfl
@[simp] theorem State.takeView_crcK : s.takeView.crcK = s.crcK := rfl
@[simp] theorem State.takeView_out : s.takeView.out = s.out := rfl
@[simp] theorem State.takeView_hRdata : s.takeView.hRdata = s.hRdata := rfl
@[simp] theorem State.takeView_view : s.takeView.view = s.consumerView := rfl
@[simp] theorem State.takeView_input : s.takeView.input = s.input := rfl

end Sys2Proof.Machine
end

