-- ==== Sys2Proof/Laws/Ops.lean ====
section
/-! SUPPORT. What the shared operations do, once for each: the buffers, the outcomes, the selection of a byte's
operation, the abort and the command register. -/

namespace Sys2Proof.Machine

/-! ### Buffers -/

theorem Memory.read_insert_same (m : Memory) (i : Nat) (b : Byte) : (m.insert i b).read i = some b := by
  induction m with
  | nil => simp [Memory.insert, Memory.read]
  | cons p m ih =>
    obtain ⟨a, c⟩ := p
    simp only [Memory.insert]
    split
    · simp [Memory.read]
    · split
      · simp [Memory.read]
      · next h => simp [Memory.read, h, ih]

theorem Memory.read_insert_of_ne (m : Memory) {i j : Nat} (b : Byte) (h : j ≠ i) :
    (m.insert i b).read j = m.read j := by
  induction m with
  | nil => simp [Memory.insert, Memory.read, h]
  | cons p m ih =>
    obtain ⟨a, c⟩ := p
    simp only [Memory.insert]
    split
    · simp [Memory.read, h]
    · split
      · next e => subst e; simp [Memory.read, h]
      · simp [Memory.read, ih]

theorem Memory.read_write_same (m : Memory) {i : Nat} (b : Byte) (h : i < 255) : (m.write i b).read i = some b := by
  simp [Memory.write, Config.maxBody, h, Memory.read_insert_same]

theorem Memory.read_write_of_ne (m : Memory) {i j : Nat} (b : Byte) (h : j ≠ i) :
    (m.write i b).read j = m.read j := by
  unfold Memory.write
  split
  · exact Memory.read_insert_of_ne m b h
  · rfl

theorem Memory.wfFrom_cons (lo a : Nat) (c : Byte) (m : Memory) :
    Memory.wfFrom lo ((a, c) :: m) = true ↔ (lo ≤ a ∧ a < 255) ∧ Memory.wfFrom (a + 1) m = true := by
  show (decide (lo ≤ a) && decide (a < 255) && Memory.wfFrom (a + 1) m) = true ↔ _
  simp

theorem Memory.wfFrom_insert (m : Memory) {lo i : Nat} (b : Byte) (h : m.wfFrom lo = true) (hlo : lo ≤ i)
    (hi : i < 255) : (m.insert i b).wfFrom lo = true := by
  induction m generalizing lo with
  | nil => simp [Memory.insert, Memory.wfFrom, Config.maxBody, hlo, hi]
  | cons p m ih =>
    obtain ⟨a, c⟩ := p
    simp only [Memory.wfFrom_cons] at h
    simp only [Memory.insert]
    split
    · simp only [Memory.wfFrom_cons]
      exact ⟨⟨hlo, hi⟩, ⟨by omega, h.1.2⟩, h.2⟩
    · split
      · next e =>
        subst e
        simp only [Memory.wfFrom_cons]
        exact ⟨⟨hlo, hi⟩, h.2⟩
      · simp only [Memory.wfFrom_cons]
        exact ⟨h.1, ih h.2 (by omega)⟩

theorem Memory.wf_write (m : Memory) (i : Nat) (b : Byte) (h : m.wf = true) : (m.write i b).wf = true := by
  unfold Memory.write
  split
  · next hi => exact Memory.wfFrom_insert m b h (Nat.zero_le i) hi
  · exact h

theorem wf_copyBody (w d : Memory) (n : Nat) (h : d.wf = true) : (copyBody w d n).wf = true := by
  induction n with
  | zero => exact h
  | succ n ih => exact Memory.wf_write _ _ _ ih

theorem read_copyBody_of_lt (w d : Memory) {n i : Nat} (h : i < n) (hi : i < 255) :
    (copyBody w d n).read i = some (wbufByte w i) := by
  induction n with
  | zero => omega
  | succ n ih =>
    by_cases e : i = n
    · subst e; exact Memory.read_write_same _ _ hi
    · exact (Memory.read_write_of_ne _ _ e).trans (ih (by omega))

theorem read_copyBody_of_le (w d : Memory) {n i : Nat} (h : n ≤ i) : (copyBody w d n).read i = d.read i := by
  induction n with
  | zero => rfl
  | succ n ih => exact (Memory.read_write_of_ne _ _ (by omega)).trans (ih (by omega))

/-! ### Outcomes -/

theorem whenSelected_next_iff {c : Prop} [Decidable c] {t u : State} :
    whenSelected c t = .next u ↔ c ∧ t = u := by
  unfold whenSelected
  split <;> simp_all

theorem whenSelected_of {c : Prop} [Decidable c] (t : State) (h : c) : whenSelected c t = .next t := if_pos h

theorem whenSelected_of_not {c : Prop} [Decidable c] (t : State) (h : ¬c) :
    whenSelected c t = .refused .notSelected := if_neg h

@[simp] theorem andThen_next (s : State) (f : State → Answer) : andThen (.next s) f = f s := rfl

theorem andThen_next_iff {o : Answer} {f : State → Answer} {t : State} :
    andThen o f = .next t ↔ ∃ u, o = .next u ∧ f u = .next t := by
  cases o <;> simp [andThen]

/-! ### Bytes -/

@[simp] theorem deliver_nil (s : State) : deliver [] s = .next s := rfl

@[simp] theorem deliver_cons (b : Byte) (bs : List Byte) (s : State) :
    deliver (b :: bs) s = andThen (deliverByte b s) (deliver bs) := rfl

theorem deliver_append (xs ys : List Byte) (s : State) :
    deliver (xs ++ ys) s = andThen (deliver xs s) (deliver ys) := by
  induction xs generalizing s with
  | nil => rfl
  | cons b xs ih =>
    simp only [List.cons_append, deliver_cons]
    cases deliverByte b s with
    | next t => exact ih t
    | fault r => rfl
    | refused r => rfl

/-- All that one `Byte(b)` event can do. -/
theorem deliverByte_next {b : Byte} {s t : State} (h : deliverByte b s = .next t) :
    (s.phase = .hunt ∧ b = Config.syncByte ∧ s.syncCnt = 3 ∧ t = s.lock)
    ∨ (s.phase = .hunt ∧ b = Config.syncByte ∧ s.syncCnt ≠ 3 ∧ t = s.countSync)
    ∨ (s.phase = .hunt ∧ b ≠ Config.syncByte ∧ t = s.skipByte)
    ∨ (s.phase = .len ∧ b = 0 ∧ t = s.takeLenZero)
    ∨ (s.phase = .len ∧ b ≠ 0 ∧ t = s.takeLen b)
    ∨ (s.phase = .body ∧ s.idx.toNat + 1 < s.len.toNat ∧ t = s.takeBody b .body)
    ∨ (s.phase = .body ∧ s.idx.toNat + 1 = s.len.toNat ∧ t = s.takeBody b .crcHi)
    ∨ (s.phase = .crcHi ∧ t = s.takeCrcHi b)
    ∨ (s.phase = .crcLo ∧ t = s.takeCrcLo b) := by
  unfold deliverByte at h
  split at h <;>
    simp only [execHuntA5, execHuntLock, execHuntSkip, execLenByte, execLenZero, execBodyByte, execBodyLast,
      execCrchiByte, execCrcloByte] at h <;>
    (try split at h) <;> (try split at h) <;>
    obtain ⟨hc, rfl⟩ := whenSelected_next_iff.mp h <;> simp_all

/-! ### Records -/

theorem decode_eventCode (x : Select) (e : Event) : decode x (eventCode e) = decodeEvent x e := by
  cases e with
  | byte b =>
    have h : eventOf (eventWord 1 b) 0 0 = .ok (.byte b) := by revert b; decide
    simp only [eventCode, byteCode, decode, h]
  | _ => rfl

theorem runEvent_eq (e : Event) (s : State) :
    runEvent e s = match decodeEvent s.select e with
      | .ok i => exec i s
      | .error r => .refused (.undecodable r) := by
  have h := decode_eventCode s.select e
  cases hd : decodeEvent s.select e <;> rw [hd] at h <;> simp only [runEvent, runCode, h]

/-! ### Aborts and commands -/

theorem abort_of_hunt {s : State} (h : s.phase = .hunt) : s.abort = s.abortHunt := if_pos h

theorem abort_of_frame {s : State} (h : s.phase ≠ .hunt) : s.abort = s.abortFrame := if_neg h

/-- The three clearing commands of a `CMDR` write, before its abort bit is looked at. -/
def State.clears (s : State) (v : Word) : State :=
  { s with
    resValid := s.resValid && !v[0]
    overrun := s.overrun && !v[1]
    skip := s.skip && !v[2]
    out := Out.quiet }

theorem commands_eq (s : State) (v : Word) :
    s.commands v = if v[3] then (s.clears v).abort else s.clears v := by
  have h : ((s.quiet.command v[0] State.ack).command v[1] State.clrOvr).command v[2]
      State.clrSkip = s.clears v := by
    cases h0 : v[0] <;> cases h1 : v[1] <;> cases h2 : v[2] <;>
      simp [State.command, State.clears, State.quiet, State.setOut, State.ack, State.clrOvr, State.clrSkip, h0, h1, h2]
  unfold State.commands
  rw [h]
  rfl

end Sys2Proof.Machine
end

