-- ==== Sys2Proof/Laws/PerInstr.lean ====
section
/-! SUPPORT. A family of facts about the instructions as encodings: the record that `encode` writes matches the
row's `match` and `mask` of spec/opcode_table.json. -/

namespace Sys2Proof.Laws

/-- The `match` and `mask` of a row, by its format. -/
inductive RowPattern where
  | event (pattern mask : BitVec 12)
  | read
  | cmdr (pattern mask : Word)
  | frame (pattern mask : List Byte)
deriving DecidableEq, Repr

/-- A frame row's `match` with command byte `c` (R70): byte 0 first. -/
def framePattern (c : Byte) : List Byte := [0xA5, 0xA5, 0xA5, 0xA5, 0x00, c]

/-- A frame row's `mask` with `m` over the command byte (R70). -/
def frameMask (m : Byte) : List Byte := [0xFF, 0xFF, 0xFF, 0xFF, 0x00, m]

/-- The rows of spec/opcode_table.json. -/
def rowOf : Instr → RowPattern
  | .reset => .event 0x800 0xF00
  | .idle => .event 0x000 0xF00
  | .huntA5 => .event 0x2A5 0xFFF
  | .huntLock => .event 0x2A5 0xFFF
  | .huntSkip _ => .event 0x200 0xF00
  | .lenByte _ => .event 0x200 0xF00
  | .lenZero => .event 0x200 0xFFF
  | .bodyByte _ => .event 0x200 0xF00
  | .bodyLast _ => .event 0x200 0xF00
  | .crchiByte _ => .event 0x200 0xF00
  | .crcloByte _ => .event 0x200 0xF00
  | .abortHunt => .event 0x400 0xF00
  | .abortFrame => .event 0x400 0xF00
  | .hwCtrl _ => .event 0x600 0xF00
  | .hwCmdr _ => .event 0x600 0xF00
  | .hwNone _ _ => .event 0x600 0xF00
  | .hr _ => .read
  | .cmdrAck => .cmdr 0x0001 0x0001
  | .cmdrClrOvr => .cmdr 0x0002 0x0002
  | .cmdrClrSkip => .cmdr 0x0004 0x0004
  | .cmdrAbort => .cmdr 0x0008 0x0008
  | .setPtt _ _ => .frame (framePattern 0x07) (frameMask 0xFF)
  | .setFreq _ _ => .frame (framePattern 0x09) (frameMask 0xFF)
  | .setMode _ _ => .frame (framePattern 0x0A) (frameMask 0xFF)
  | .queryStatus _ _ => .frame (framePattern 0x0B) (frameMask 0xFF)
  | .unknown _ _ _ => .frame (framePattern 0x00) (frameMask 0x00)

/-- Whether a record has a row's format and its word matches under the mask. -/
def matchesRow : Code → RowPattern → Prop
  | .event w _ _, .event p m => w &&& m = p
  | .read _, .read => True
  | .cmdr v, .cmdr p m => v &&& m = p
  | .frame bs, .frame p m => List.zipWith (· &&& ·) (bs.take 6) m = p
  | _, _ => False

/-- The record `encode` writes for an instruction matches its row. -/
def EncodeMatchesRow.Statement (i : Instr) : Prop := matchesRow (encode i) (rowOf i)

theorem byteCode_matches (b : Byte) : matchesRow (byteCode b) (.event 0x200 0xF00) := by
  revert b
  unfold matchesRow byteCode
  decide

theorem frame_matches (lenb c : Byte) (tail : List Byte) :
    matchesRow (.frame (frameBytes lenb c tail)) (.frame (framePattern c) (frameMask 0xFF)) := by
  have h : c &&& 255#8 = c := by revert c; decide
  simp [matchesRow, frameBytes, marker, framePattern, frameMask, Config.syncByte, h]

theorem EncodeMatchesRow.reset : EncodeMatchesRow.Statement .reset := rfl
theorem EncodeMatchesRow.idle : EncodeMatchesRow.Statement .idle := rfl
theorem EncodeMatchesRow.huntA5 : EncodeMatchesRow.Statement .huntA5 := rfl
theorem EncodeMatchesRow.huntLock : EncodeMatchesRow.Statement .huntLock := rfl
theorem EncodeMatchesRow.huntSkip (b : Byte) : EncodeMatchesRow.Statement (.huntSkip b) := byteCode_matches b
theorem EncodeMatchesRow.lenByte (b : Byte) : EncodeMatchesRow.Statement (.lenByte b) := byteCode_matches b
theorem EncodeMatchesRow.lenZero : EncodeMatchesRow.Statement .lenZero := rfl
theorem EncodeMatchesRow.bodyByte (b : Byte) : EncodeMatchesRow.Statement (.bodyByte b) := byteCode_matches b
theorem EncodeMatchesRow.bodyLast (b : Byte) : EncodeMatchesRow.Statement (.bodyLast b) := byteCode_matches b
theorem EncodeMatchesRow.crchiByte (b : Byte) : EncodeMatchesRow.Statement (.crchiByte b) := byteCode_matches b
theorem EncodeMatchesRow.crcloByte (b : Byte) : EncodeMatchesRow.Statement (.crcloByte b) := byteCode_matches b
theorem EncodeMatchesRow.abortHunt : EncodeMatchesRow.Statement .abortHunt := rfl
theorem EncodeMatchesRow.abortFrame : EncodeMatchesRow.Statement .abortFrame := rfl
theorem EncodeMatchesRow.hwCtrl (v : Word) : EncodeMatchesRow.Statement (.hwCtrl v) := rfl
theorem EncodeMatchesRow.hwCmdr (v : Word) : EncodeMatchesRow.Statement (.hwCmdr v) := rfl
theorem EncodeMatchesRow.hwNone (a : Addr) (v : Word) : EncodeMatchesRow.Statement (.hwNone a v) := rfl
theorem EncodeMatchesRow.hr (a : Addr) : EncodeMatchesRow.Statement (.hr a) := trivial
theorem EncodeMatchesRow.cmdrAck : EncodeMatchesRow.Statement .cmdrAck := rfl
theorem EncodeMatchesRow.cmdrClrOvr : EncodeMatchesRow.Statement .cmdrClrOvr := rfl
theorem EncodeMatchesRow.cmdrClrSkip : EncodeMatchesRow.Statement .cmdrClrSkip := rfl
theorem EncodeMatchesRow.cmdrAbort : EncodeMatchesRow.Statement .cmdrAbort := rfl
theorem EncodeMatchesRow.setPtt (lenb : Byte) (tail : List Byte) : EncodeMatchesRow.Statement (.setPtt lenb tail) :=
  frame_matches lenb 0x07 tail
theorem EncodeMatchesRow.setFreq (lenb : Byte) (tail : List Byte) : EncodeMatchesRow.Statement (.setFreq lenb tail) :=
  frame_matches lenb 0x09 tail
theorem EncodeMatchesRow.setMode (lenb : Byte) (tail : List Byte) : EncodeMatchesRow.Statement (.setMode lenb tail) :=
  frame_matches lenb 0x0A tail
theorem EncodeMatchesRow.queryStatus (lenb : Byte) (tail : List Byte) :
    EncodeMatchesRow.Statement (.queryStatus lenb tail) := frame_matches lenb 0x0B tail
theorem EncodeMatchesRow.unknown (lenb cmd : Byte) (tail : List Byte) :
    EncodeMatchesRow.Statement (.unknown lenb cmd tail) := by
  simp [EncodeMatchesRow.Statement, encode, rowOf, matchesRow, frameBytes, marker, framePattern, frameMask,
    Config.syncByte]

end Sys2Proof.Laws
end

