-- ==== Sys2Proof/Tests/Slice0.lean ====
section
/-! SUPPORT. The model's own tests: each well-formedness check refuses an ill-formed term, each constructor decodes
from a word written out from the spec's encoding, each instruction's effect on a small state (expected values from
spec/95_test_vectors.md and the rules' examples), and a witness for each statement that has hypotheses. -/

namespace Sys2Proof.Tests

open Sys2Proof Sys2Proof.Machine

/-! ### Well-formedness -/

theorem test_wf_huntSkip_sync_byte_refused : (Instr.huntSkip 0xA5).wellFormed = false := by decide
theorem test_wf_lenByte_zero_refused : (Instr.lenByte 0).wellFormed = false := by decide
theorem test_wf_hwNone_ctrl_refused : (Instr.hwNone 0x000 1).wellFormed = false := by decide
theorem test_wf_hwNone_cmdr_refused : (Instr.hwNone 0x002 1).wellFormed = false := by decide
theorem test_wf_setPtt_short_tail_refused : (Instr.setPtt 2 [0, 0]).wellFormed = false := by decide
theorem test_wf_setFreq_long_tail_refused : (Instr.setFreq 1 [0, 0, 0]).wellFormed = false := by decide
theorem test_wf_setMode_no_tail_refused : (Instr.setMode 0 []).wellFormed = false := by decide
theorem test_wf_queryStatus_short_tail_refused : (Instr.queryStatus 1 [0]).wellFormed = false := by decide
theorem test_wf_unknown_defined_command_refused : (Instr.unknown 1 0x07 [0, 0]).wellFormed = false := by decide
theorem test_wf_unknown_short_tail_refused : (Instr.unknown 1 0x55 [0]).wellFormed = false := by decide

/-! ### Decoding, every constructor from a word of R69, R70 -/

theorem test_decode_reset : decode ⟨.body, 0, 1, 3⟩ (.event 0b100000000000 0 0) = .ok .reset := by decide
theorem test_decode_idle : decode ⟨.hunt, 0, 0, 0⟩ (.event 0b000000000000 0 0) = .ok .idle := by decide
theorem test_decode_huntA5 : decode ⟨.hunt, 2, 0, 0⟩ (.event 0b001010100101 0 0) = .ok .huntA5 := by decide
theorem test_decode_huntLock : decode ⟨.hunt, 3, 0, 0⟩ (.event 0b001010100101 0 0) = .ok .huntLock := by decide
theorem test_decode_huntSkip : decode ⟨.hunt, 3, 0, 0⟩ (.event 0b001000010011 0 0) = .ok (.huntSkip 0x13) := by decide
theorem test_decode_lenByte : decode ⟨.len, 0, 0, 0⟩ (.event 0b001010100101 0 0) = .ok (.lenByte 0xA5) := by decide
theorem test_decode_lenZero : decode ⟨.len, 0, 0, 0⟩ (.event 0b001000000000 0 0) = .ok .lenZero := by decide
theorem test_decode_bodyByte : decode ⟨.body, 0, 253, 255⟩ (.event 0b001000000111 0 0) = .ok (.bodyByte 0x07) := by decide
theorem test_decode_bodyLast : decode ⟨.body, 0, 254, 255⟩ (.event 0b001000000000 0 0) = .ok (.bodyLast 0x00) := by decide
theorem test_decode_crchiByte : decode ⟨.crcHi, 0, 2, 2⟩ (.event 0b001000110000 0 0) = .ok (.crchiByte 0x30) := by decide
theorem test_decode_crcloByte : decode ⟨.crcLo, 0, 2, 2⟩ (.event 0b001011010010 0 0) = .ok (.crcloByte 0xD2) := by decide
theorem test_decode_abortHunt : decode ⟨.hunt, 1, 0, 0⟩ (.event 0b010000000000 0 0) = .ok .abortHunt := by decide
theorem test_decode_abortFrame : decode ⟨.len, 0, 0, 0⟩ (.event 0b010000000000 0 0) = .ok .abortFrame := by decide
theorem test_decode_hwCtrl : decode ⟨.hunt, 0, 0, 0⟩ (.event 0b011000000000 0x000 0x0003) = .ok (.hwCtrl 3) := by decide
theorem test_decode_hwCmdr : decode ⟨.hunt, 0, 0, 0⟩ (.event 0b011000000000 0x002 0x0009) = .ok (.hwCmdr 9) := by decide
theorem test_decode_hwNone :
    decode ⟨.hunt, 0, 0, 0⟩ (.event 0b011000000000 0x005 0xFFFF) = .ok (.hwNone 0x005 0xFFFF) := by decide
theorem test_decode_hr : decode ⟨.hunt, 0, 0, 0⟩ (.read 0x1FE) = .ok (.hr 0x1FE) := by decide
theorem test_decode_cmdrAck : decode ⟨.hunt, 0, 0, 0⟩ (.cmdr 0b0001) = .ok .cmdrAck := by decide
theorem test_decode_cmdrClrOvr : decode ⟨.hunt, 0, 0, 0⟩ (.cmdr 0b0010) = .ok .cmdrClrOvr := by decide
theorem test_decode_cmdrClrSkip : decode ⟨.hunt, 0, 0, 0⟩ (.cmdr 0b0100) = .ok .cmdrClrSkip := by decide
theorem test_decode_cmdrAbort : decode ⟨.hunt, 0, 0, 0⟩ (.cmdr 0b1000) = .ok .cmdrAbort := by decide
theorem test_decode_setPtt : decode ⟨.hunt, 0, 0, 0⟩
    (.frame [0xA5, 0xA5, 0xA5, 0xA5, 0x02, 0x07, 0x00, 0x30, 0xD2]) = .ok (.setPtt 2 [0x00, 0x30, 0xD2]) := by decide
theorem test_decode_setFreq : decode ⟨.hunt, 0, 0, 0⟩
    (.frame [0xA5, 0xA5, 0xA5, 0xA5, 0x09, 0x09, 0x00, 0xD9, 0x70, 0x10, 0x00, 0xD9, 0x70, 0x10, 0xB1, 0xBD])
    = .ok (.setFreq 9 [0x00, 0xD9, 0x70, 0x10, 0x00, 0xD9, 0x70, 0x10, 0xB1, 0xBD]) := by decide
theorem test_decode_setMode : decode ⟨.hunt, 0, 0, 0⟩
    (.frame [0xA5, 0xA5, 0xA5, 0xA5, 0x03, 0x0A, 0x01, 0x01, 0x32, 0xE0])
    = .ok (.setMode 3 [0x01, 0x01, 0x32, 0xE0]) := by decide
theorem test_decode_queryStatus : decode ⟨.hunt, 0, 0, 0⟩
    (.frame [0xA5, 0xA5, 0xA5, 0xA5, 0x01, 0x0B, 0xE7, 0x41]) = .ok (.queryStatus 1 [0xE7, 0x41]) := by decide
theorem test_decode_unknown : decode ⟨.hunt, 0, 0, 0⟩
    (.frame [0xA5, 0xA5, 0xA5, 0xA5, 0x05, 0x55, 0xA5, 0xA5, 0xA5, 0xA5, 0x86, 0x85])
    = .ok (.unknown 5 0x55 [0xA5, 0xA5, 0xA5, 0xA5, 0x86, 0x85]) := by decide

/-! Reserved words. -/

theorem test_decode_zero_bit_refused : decode ⟨.hunt, 0, 0, 0⟩ (.event 0x300 0 0) = .error .eventZeroBit := by decide
theorem test_decode_kind_5_refused : decode ⟨.hunt, 0, 0, 0⟩ (.event 0xA00 0 0) = .error .eventKind := by decide
theorem test_decode_two_commands_refused : decode ⟨.hunt, 0, 0, 0⟩ (.cmdr 9) = .error .notOneCommand := by decide
theorem test_decode_frame_length_refused :
    decode ⟨.hunt, 0, 0, 0⟩ (.frame [0xA5, 0xA5, 0xA5, 0xA5, 0x02, 0x07, 0x00, 0x30]) = .error .frameLength := by decide
theorem test_decode_body_full_refused : decode ⟨.body, 0, 3, 3⟩ (.event 0x207 0 0) = .error .bodyFull := by decide

/-! ### Small states -/

/-- The next state of an answer. -/
def nextOf : Answer → Option State
  | .next s => some s
  | .fault _ => none
  | .refused _ => none

/-- Reset state with the marker's first three bytes counted. -/
def three : State := { State.reset with syncCnt := 3 }

/-- After the marker. -/
def atLen : State := { State.reset with phase := .len }

/-- Program P1 after its length byte 02. -/
def atBody : State := { State.reset with phase := .body, len := 2, crc := 0x813E }

/-- Program P1 after its first body byte. -/
def atLast : State := { atBody with idx := 1, crc := 0x1241, wbuf := [(0, 0x07)] }

/-- Program P1 after its body. -/
def atCrcHi : State := { atLast with phase := .crcHi, idx := 2, crc := 0x30D2, wbuf := [(0, 0x07), (1, 0x00)] }

/-- Program P1 after its first CRC byte. -/
def atCrcLo : State := { atCrcHi with phase := .crcLo, crcRxHi := 0x30 }

/-- Program P1 at its end: one result, not acknowledged. -/
def reported : State :=
  { atCrcLo with
    phase := .hunt
    resValid := true
    res := ⟨.ok, true, false, .crcLo, 2, 2, 0x07, 0x30D2, 0x30D2⟩
    resBody := [(0, 0x07), (1, 0x00)]
    out := ⟨true, .ok⟩ }

/-- The result waiting and a second frame cut after its command type (the start of vectors M1 to M5). -/
def cut : State := { reported with phase := .body, len := 2, idx := 1, crc := 0x1241, crcRxHi := 0, out := ⟨false, .none⟩ }

/-! ### Effects -/

theorem test_huntA5_counts : (nextOf (exec .huntA5 State.reset)).map (·.syncCnt) = some 1 := by decide
theorem test_huntA5_not_at_three : exec .huntA5 three = .refused .notSelected := by rfl
theorem test_huntLock_opens : (nextOf (exec .huntLock { three with skip := true, len := 7, idx := 7, crc := 1 })).map
    (fun t => (t.select, t.crc, t.skip)) = some (⟨.len, 0, 0, 0⟩, 0xFFFF, true) := by decide
theorem test_huntSkip_flags : (nextOf (exec (.huntSkip 0x13) three)).map (fun t => (t.syncCnt, t.skip)) = some (0, true) := by
  decide
theorem test_lenByte_P1 : nextOf (exec (.lenByte 2) atLen) = some atBody := by decide
theorem test_lenZero_P6 : (nextOf (exec .lenZero atLen)).map (fun t => (t.phase, t.len, t.crc)) = some (.crcHi, 0, 0x40BF) := by
  decide
theorem test_bodyByte_P1 : nextOf (exec (.bodyByte 0x07) atBody) = some atLast := by decide
theorem test_bodyLast_P1 : nextOf (exec (.bodyLast 0x00) atLast) = some atCrcHi := by decide
theorem test_crchiByte_P1 : nextOf (exec (.crchiByte 0x30) atCrcHi) = some atCrcLo := by decide
theorem test_crcloByte_P1 : nextOf (exec (.crcloByte 0xD2) atCrcLo) = some reported := by decide
theorem test_crcloByte_X1_X2 : ([true, false].map fun b =>
    (nextOf (exec (.crcloByte 0xD3) { atCrcLo with strict := b })).map fun t => (t.res.status, t.hostRead 0x003))
    = [some (.badCrc, 0x0282), some (.ok, 0x0281)] := by decide
theorem test_abortHunt_Y9 : (nextOf (exec .abortHunt { State.reset with syncCnt := 2 })).map (·.hostRead 0x001)
    = some 0x0020 := by decide
theorem test_abortFrame_X10 : (nextOf (exec .abortFrame atLen)).map
    (fun t => [t.hostRead 0x001, t.hostRead 0x003, t.hostRead 0x004, t.hostRead 0x005, t.hostRead 0x006])
    = some [0x0040, 0x0024, 0x0000, 0x0000, 0xFFFF] := by decide
theorem test_abortFrame_X14 : (nextOf (exec .abortFrame atCrcLo)).map
    (fun t => [t.hostRead 0x003, t.hostRead 0x004, t.hostRead 0x005, t.hostRead 0x006])
    = some [0x0284, 0x0207, 0x0000, 0x30D2] := by decide
theorem test_reset_drops_frame : (nextOf (exec .reset { cut with strict := false, ie := true })).map
    (fun t => [t.hostRead 0x000, t.hostRead 0x001, t.hostRead 0x003, t.hostRead 0x007, t.hostRead 0x100])
    = some [0x0001, 0x0000, 0x0000, 0xFFFF, 0x0000] := by decide
theorem test_idle_keeps : nextOf (exec .idle cut) = some cut := by decide
theorem test_hwCtrl_H1 : (nextOf (exec (.hwCtrl 0xFFFF) reported)).map (fun t => (t.hostRead 0x000, t.hostRead 0x001))
    = some (0x0003, 0x0140) := by decide
theorem test_hwCmdr_M1_M2_M4 : ([0x0008, 0x0009, 0x0001].map fun v =>
    (nextOf (exec (.hwCmdr v) cut)).map fun t => (t.hostRead 0x001, t.hostRead 0x003))
    = [some (0x00C0, 0x0244), some (0x0040, 0x0244), some (0x0002, 0x0289)] := by decide
theorem test_hwCmdr_H7 : (nextOf (exec (.hwCmdr 0xFFF0) reported)).map (·.hostRead 0x001) = some 0x0040 := by decide
theorem test_hwNone_H3 : (nextOf (exec (.hwNone 0x005 0xFFFF) reported)).map (·.hostRead 0x005) = some 0x30D2 := by decide
theorem test_hr_map_P1 : ([0x001, 0x003, 0x004, 0x005, 0x007, 0x008, 0x009, 0x00A, 0x100, 0x102, 0x1FF].map fun a =>
    (nextOf (exec (.hr a) reported)).map (·.hRdata))
    = [0x0040, 0x0289, 0x0207, 0x30D2, 0x30D2, 0x0202, 0x0030, 0xA001, 0x0007, 0x0000, 0x0000].map some := by decide
theorem test_cmdrAck_H8 : (nextOf (exec .cmdrAck { reported with ie := true })).map
    (fun t => (t.hostRead 0x001, t.hostRead 0x003)) = some (0x0000, 0x0289) := by decide
theorem test_cmdrClrOvr : (nextOf (exec .cmdrClrOvr { reported with overrun := true })).map (·.hostRead 0x001)
    = some 0x0040 := by decide
theorem test_cmdrClrSkip : (nextOf (exec .cmdrClrSkip { State.reset with skip := true })).map (·.hostRead 0x001)
    = some 0x0000 := by decide
theorem test_cmdrAbort_M1 : (nextOf (exec .cmdrAbort cut)).map
    (fun t => (t.hostRead 0x001, t.hostRead 0x003, t.hostRead 0x004, t.out)) = some (0x00C0, 0x0244, 0x0107, ⟨true, .truncated⟩) := by
  decide
theorem test_setPtt_F2 : (nextOf (exec (.setPtt 2 [0x01, 0xF0, 0x13]) State.reset)).map
    (fun t => (t.hostRead 0x003, t.hostRead 0x004, t.hostRead 0x101, t.view)) = some (0x0289, 0x0207, 0x0001, .ptt .receive) := by
  decide
theorem test_setPtt_X3_swapped_crc : (nextOf (exec (.setPtt 2 [0x00, 0xD2, 0x30]) State.reset)).map
    (fun t => (t.hostRead 0x003, t.view)) = some (0x0282, .none) := by decide
set_option maxRecDepth 100000 in
theorem test_setFreq_F6 : (nextOf (exec (.setFreq 9 [0x00, 0x6B, 0xF0, 0xD0, 0x00, 0x6B, 0xF0, 0xD0, 0xDC, 0xF1])
    State.reset)).map (fun t => (t.hostRead 0x003, t.view)) = some (0x0989, .freq (some (0x006BF0D0, 0x006BF0D0))) := by decide
theorem test_setMode_F9 : (nextOf (exec (.setMode 3 [0x08, 0x08, 0x64, 0x26]) State.reset)).map
    (fun t => (t.hostRead 0x003, t.view)) = some (0x0389, .mode (some (8, 8))) := by decide
theorem test_queryStatus_F10 : (nextOf (exec (.queryStatus 1 [0xE7, 0x41]) State.reset)).map
    (fun t => (t.hostRead 0x003, t.hostRead 0x004)) = some (0x0189, 0x010B) := by decide
set_option maxRecDepth 100000 in
theorem test_unknown_F11 : (nextOf (exec (.unknown 5 0x55 [0xA5, 0xA5, 0xA5, 0xA5, 0x86, 0x85]) State.reset)).map
    (fun t => (t.hostRead 0x003, t.hostRead 0x004, t.hostRead 0x104)) = some (0x0589, 0x0555, 0x00A5) := by decide

/-! Parts: the CRC for the three constants (vectors 2.3), the codec (E4, D5, D12), a clock cycle (Z3). -/

set_option maxRecDepth 100000 in
theorem test_crcSeq_digits : ([0xA001, 0x8408, 0x8005].map fun k =>
    crcSeq k [0x31, 0x32, 0x33, 0x34, 0x35, 0x36, 0x37, 0x38, 0x39]) = [0x4B37, 0x6F91, 0x3D7B] := by decide
theorem test_frameEncode_E4 : frameEncode 0xA001 0x0B [] = some [0xA5, 0xA5, 0xA5, 0xA5, 0x01, 0x0B, 0xE7, 0x41] := by
  decide
theorem test_frameDecode_D5 :
    frameDecode 0xA001 true [0x13, 0xA5, 0xA5, 0xA5, 0xA5, 0x02, 0x07, 0x00, 0x30, 0xD2] = .badSync := by decide
theorem test_frameDecode_D12 : frameDecode 0xA001 false [0xA5, 0xA5, 0xA5, 0xA5, 0x00, 0x40, 0xBE] = .emptyBody := by
  decide
set_option maxRecDepth 100000 in
theorem test_pseudo_setFreq_S7 : pseudoFrame 0xA001 (.setFreq 14250000)
    = [0xA5, 0xA5, 0xA5, 0xA5, 0x09, 0x09, 0x00, 0xD9, 0x70, 0x10, 0x00, 0xD9, 0x70, 0x10, 0xB1, 0xBD] := by decide
theorem test_modeId_unknown_names : ["FM", "usb", "", "PKT"].map modeId = [0, 0, 0, 8] := by decide
theorem test_cycle_Z3 : (runCycle ⟨false, true, 0xD2, true, false, 0, 0⟩ atCrcLo).map
    (fun r => (r.2.out, r.1.hostRead 0x001, r.1.hostRead 0x003)) = some (⟨true, .truncated⟩, 0x0060, 0x0284) := by decide

/-! ### Witnesses: the hypotheses of the statements can be met together -/

theorem witness_SyncByteIsCounted : ∃ s : State, s.phase = .hunt ∧ s.syncCnt.toNat < 3 ∧ s.syncCnt = 2 :=
  ⟨{ State.reset with syncCnt := 2 }, by decide⟩
theorem witness_FourthSyncByteOpensFrame : ∃ s : State, s.phase = .hunt ∧ s.syncCnt = 3 := ⟨three, by decide⟩
theorem witness_NonSyncByteIsSkipped : ∃ (s : State) (b : Byte), s.phase = .hunt ∧ b ≠ 0xA5 := ⟨State.reset, 0, by decide⟩
theorem witness_AbortInHuntDropsPartialMarker : (∃ s : State, s.phase = .hunt ∧ s.syncCnt ≠ 0)
    ∧ ∃ s : State, s.phase = .hunt ∧ s.syncCnt = 0 := ⟨⟨three, by decide⟩, ⟨State.reset, by decide⟩⟩
theorem witness_HuntLocksAtFirstMarker : State.reset.phase = .hunt ∧ State.reset.syncCnt = 0
    ∧ (¬ [0xA5, 0xA5, 0xA5, 0xA5] <:+: ([0xA5, 0xA5, 0xA5] : List Byte))
    ∧ (¬ [0xA5, 0xA5, 0xA5, 0xA5] <:+: ([] ++ [0xA5, 0xA5, 0xA5] : List Byte))
    ∧ ¬ [0xA5, 0xA5, 0xA5, 0xA5] <:+: ([0xA5, 0x13] ++ [0xA5, 0xA5, 0xA5] : List Byte) := by decide
theorem witness_NonzeroLengthByteOpensBody : ∃ (s : State) (b : Byte), s.phase = .len ∧ b ≠ 0 ∧ s.Inv := ⟨atLen, 0xFF, by decide⟩
theorem witness_ZeroLengthByteGoesToChecksum : ∃ s : State, s.phase = .len ∧ s.Inv ∧ s.crcK = 0xA001 := ⟨atLen, by decide⟩
theorem witness_BodyByteIsStoredAtIdx : ∃ s : State, s.phase = .body ∧ s.idx.toNat + 1 < s.len.toNat ∧ s.idx = 253
    ∧ s.wbuf.wf = true := ⟨{ State.reset with phase := .body, idx := 253, len := 255 }, by decide⟩
theorem witness_LastBodyByteClosesBody : ∃ s : State, s.phase = .body ∧ s.idx.toNat + 1 = s.len.toNat ∧ s.idx = 254
    ∧ s.wbuf.wf = true := ⟨{ State.reset with phase := .body, idx := 254, len := 255 }, by decide⟩
theorem witness_BodyChecksumAndBytesAccumulate : ∃ (s : State) (l : Byte) (full part : List Byte), s.Inv ∧ s.phase = .len
    ∧ full.length = l.toNat ∧ part.length < l.toNat := ⟨atLen, 2, [0x07, 0x00], [0x07], by decide⟩
theorem witness_CrcHighByteIsHeld : ∃ s : State, s.phase = .crcHi := ⟨atCrcHi, by decide⟩
theorem witness_CrcLowByteGivesVerdict : ∃ s : State, s.phase = .crcLo ∧ 1 ≤ s.idx.toNat ∧ s.wbuf.read 0 = some 0x07 :=
  ⟨atCrcLo, by decide⟩
theorem witness_AbortInFrameRecordsTruncated : ∃ s : State, s.phase ≠ .hunt := ⟨atLen, by decide⟩
theorem witness_StrictOkHasGoodChecksum : ∃ (e : Event) (s t : State), s.strict = true ∧ runEvent e s = .next t
    ∧ (t.out = ⟨true, .ok⟩ ∨ t.out = ⟨true, .emptyBody⟩) := ⟨.byte 0xD2, atCrcLo, reported, rfl, rfl, .inl rfl⟩
theorem witness_StrictMattersOnlyAtVerdict : ∃ (e : Event) (s t : State), s.phase ≠ .crcLo ∧ e ≠ .reset
    ∧ (∀ a w, e ≠ .hostWrite a w) ∧ runEvent e s = .next t :=
  ⟨.byte 0x30, atCrcHi, atCrcLo, by decide, by decide, (fun _ _ h => by cases h), rfl⟩
theorem witness_PhaseFollowsTheGraph_less : ∃ (s : State) (es : List Event) (l : Byte) (bs : List Byte), s.Inv ∧ s.phase = .len
    ∧ es.all noAbort = true ∧ bytesOf es = l :: bs ∧ bs.length < l.toNat + 2 :=
  ⟨atLen, [.byte 0, .idle, .byte 0x40], 0#8, [0x40], by decide, rfl, rfl, rfl, by decide⟩
theorem witness_PhaseFollowsTheGraph_all : ∃ (s : State) (es : List Event) (l : Byte) (bs : List Byte), s.Inv ∧ s.phase = .len
    ∧ es.all noAbort = true ∧ bytesOf es = l :: bs ∧ bs.length + 1 = l.toNat + 2 :=
  ⟨atLen, [.byte 0, .idle, .byte 0x40], 0#8, [0x40], by decide, rfl, rfl, rfl, by decide⟩
/-- The events of a frame but its last byte, with an `Idle` and a harmless `HostWrite` among them. -/
def frameEvents : List Event := [.byte 0xA5, .byte 0xA5, .idle, .byte 0xA5, .byte 0xA5, .byte 1, .hostWrite 0x002 0x0007,
  .byte 0x0B, .byte 0xE7]
theorem witness_WholeFrameIsReported_ok : State.reset.phase = .hunt ∧ State.reset.syncCnt = 0 ∧ frameEvents.all noAbort = true
    ∧ bytesOf frameEvents ++ [0x41] = [0xA5, 0xA5, 0xA5, 0xA5] ++ lenByteOf [0x0B] :: ([0x0B] ++ be16 0xE741)
    ∧ 0xE741 = frameCrc State.reset.crcK (lenByteOf [0x0B]) [0x0B] := by decide
theorem witness_WholeFrameIsReported_badCrc : ∃ u : State,
    bytesOf frameEvents ++ [0x40] = [0xA5, 0xA5, 0xA5, 0xA5] ++ lenByteOf [0x0B] :: ([0x0B] ++ be16 0xE740)
    ∧ 0xE740 ≠ frameCrc State.reset.crcK (lenByteOf [0x0B]) [0x0B]
    ∧ nextOf (runEvents frameEvents State.reset) = some u ∧ u.strict = true :=
  ⟨{ State.reset with phase := .crcLo, len := 1, idx := 1, crc := 0xE741, crcRxHi := 0xE7, wbuf := [(0, 0x0B)] }, by decide⟩
theorem witness_ResetGivesTheResetTable : ∃ b : Byte, b ≠ 0xA5 := ⟨0x00, by decide⟩
theorem witness_CmdrWriteRunsItsCommandsInOrder : ∃ (s : State) (v w : Word), v &&& 0x000F = 0 ∧ w[3] = false ∧ s.phase = .hunt :=
  ⟨reported, 0xFFF0, 0x0007, by decide⟩
theorem witness_OtherHostWritesAreIgnored : ∃ a : Addr, a ≠ 0x000 ∧ a ≠ 0x002 := ⟨0x001, by decide⟩
theorem witness_HostReadFollowsTheRegisterMap : 0 < reported.res.count.toNat ∧ reported.resBody.read 0 = some 0x07
    ∧ reported.res.count.toNat ≤ 2 ∧ reported.res.count.toNat ≤ 254
    ∧ 0x00B ≤ (0x00B : Addr).toNat ∧ (0x0FF : Addr).toNat ≤ 0x0FF := by decide
theorem witness_HostActionsAreIdempotent : ∃ (s t u : State) (v : Word), v[3] = false ∧ exec (.hr 0x003) s = .next t
    ∧ exec .cmdrAbort s = .next u ∧ (s.phase ≠ .hunt → s.syncCnt = 0) :=
  ⟨State.reset, State.reset, State.reset, 0x0007, by decide, rfl, rfl, by decide⟩
theorem witness_IrqIsALevelOfIeAndResValid : ∃ (e : Event) (s t : State), runEvent e s = .next t ∧ s.irq = true :=
  ⟨.idle, { reported with ie := true, out := Out.quiet }, { reported with ie := true, out := Out.quiet }, rfl, by decide⟩
theorem witness_OnlyAckAndResetClearResValid_cleared : ∃ s t : State, exec .cmdrAck s = .next t ∧ s.resValid = true
    ∧ t.resValid = false := ⟨reported, reported.quiet.ack, rfl, rfl, rfl⟩
theorem witness_OnlyAckAndResetClearResValid_set : ∃ s t : State, exec (.crcloByte 0xD2) s = .next t ∧ s.resValid = false
    ∧ t.resValid = true := ⟨atCrcLo, reported, rfl, rfl, rfl⟩
theorem witness_OnlyThreeKindsOfEventRecord : ∃ (s t u : State), runEvent (.byte 0xD2) s = .next t ∧ t.out.done = true
    ∧ runEvent .idle s = .next u ∧ u.out.done = false := ⟨atCrcLo, reported, atCrcLo, rfl, rfl, rfl, rfl⟩
theorem witness_ReplacementBeforeAckSetsOverrun : ∃ (es : List Event) (s t : State), s.resValid = true
    ∧ (∀ e ∈ es, e ≠ .reset ∧ writesCmdr 0x0003 e = false) ∧ runEvents es s = .next t ∧ t.overrun = false :=
  ⟨[.byte 0x13, .hostWrite 0x002 0x0004], reported, { reported with out := Out.quiet }, by decide, by decide, rfl, by decide⟩
theorem witness_EveryEventSelectsExactlyOneRow : ∃ s : State, s.phase = .body ∧ s.idx.toNat < s.len.toNat := ⟨atLast, by decide⟩
theorem witness_DecodeInvertsEncode : ∃ (i : Instr) (x : Select), i.wellFormed = true ∧ i.selected x = true :=
  ⟨.bodyLast 0xA5, ⟨.body, 0, 254, 255⟩, by decide⟩
theorem witness_DecodedInstructionsAreWellFormed : ∃ (x : Select) (c : Code) (i : Instr), decode x c = .ok i
    ∧ c = .frame [0xA5, 0xA5, 0xA5, 0xA5, 0x00, 0x07, 0x00] := ⟨⟨.hunt, 0, 0, 0⟩, _, .setPtt 0 [0x00], by decide, rfl⟩
theorem witness_ReservedRecordsAreRefused : (0x100 : BitVec 12)[8] = true ∧ 5 ≤ ((0xA00 : BitVec 12) >>> 9).toNat
    ∧ ((0x0003 : Word) &&& 0xF ≠ 1 ∧ (0x0003 : Word) &&& 0xF ≠ 2 ∧ (0x0003 : Word) &&& 0xF ≠ 4 ∧ (0x0003 : Word) &&& 0xF ≠ 8)
    ∧ ([0xA5, 0xA5, 0xA5, 0x13, 0x00, 0x00] : List Byte).take 4 ≠ [0xA5, 0xA5, 0xA5, 0xA5]
    ∧ ∃ s : State, s.phase = .body ∧ s.len.toNat ≤ s.idx.toNat :=
  ⟨by decide, by decide, by decide, by decide, { atBody with idx := 2 }, by decide⟩
theorem witness_StepRunsTheDecodedInstruction : ∃ (s : State) (c : Code) (rest : List Code) (i : Instr),
    s.input = c :: rest ∧ decode s.select c = .ok i ∧ decodeTableWord 16 0x2A5 = some .huntA5 ∧ State.reset.input = [] :=
  ⟨{ three with input := [.event 0x2A5 0 0, .read 0x001] }, _, _, .huntLock, rfl, by decide, by decide, rfl⟩
theorem witness_RowsStopOutsideTheirCondition : (∀ bs, encode .huntA5 ≠ .frame bs) ∧ Instr.huntA5.selected three.select = false
    ∧ (∀ bs, encode (.lenByte 0) ≠ .frame bs) ∧ (Instr.lenByte 0).wellFormed = false :=
  ⟨(fun _ h => by cases h), by decide, (fun _ h => by cases h), by decide⟩
theorem witness_EveryStepKeepsTheInvariants : ∃ s t : State, s.Inv ∧ step s = .next t ∧ s.input ≠ [] :=
  ⟨{ atCrcLo with input := [.event 0x2D2 0 0] }, reported, by decide, rfl, by decide⟩
theorem witness_EveryEventSequenceHasANextState : ∃ s : State, s.Inv ∧ s.phase = .body := ⟨atLast, by decide⟩
theorem witness_EveryInstructionCompletesWhenSelected : ∃ (i : Instr) (s : State), s.Inv ∧ i.wellFormed = true
    ∧ i.selected s.select = true := ⟨.bodyLast 0x00, atLast, by decide⟩
theorem witness_NoStepChangesTheBuildParameter : ∃ s t : State, step s = .next t := ⟨State.reset, State.reset, rfl⟩
theorem witness_CrcIsLinear : ([0x56] : List Byte).length = ([0xEF] : List Byte).length := by decide
theorem witness_CrcStepIsOneToOneExactlyForLegalK : (0xA001 : Word).getLsbD 15 = true ∧ (0x1021 : Word).getLsbD 15 = false := by
  decide
theorem witness_AdjacentByteErrorsChangeTheChecksum : (0xA001 : Word).getLsbD 15 = true
    ∧ crcSeq 0xA001 ([0x02] ++ [0x07, 0x00] ++ []) = crcSeq 0xA001 ([0x02] ++ [0x07, 0x00] ++ []) := by decide
theorem witness_SetPttFrameIsReportedAndViewed : State.reset.phase = .hunt ∧ State.reset.syncCnt = 0
    ∧ (0x30 : Byte) ++ (0xD2 : Byte) = frameCrc State.reset.crcK (lenByteOf [0x07, 0x00]) [0x07, 0x00]
    ∧ (0xF0 : Byte) ++ (0x13 : Byte) = frameCrc State.reset.crcK (lenByteOf [0x07, 0x01]) [0x07, 0x01]
    ∧ ∃ hi lo : Byte, hi ++ lo = frameCrc State.reset.crcK (lenByteOf [0x07]) [0x07] :=
  ⟨by decide, by decide, by decide, by decide, hiByte (frameCrc 0xA001 1 [0x07]), loByte (frameCrc 0xA001 1 [0x07]), by decide⟩
set_option maxRecDepth 100000 in
theorem witness_SetFreqFrameIsReportedAndViewed : (0xB1 : Byte) ++ (0xBD : Byte)
    = frameCrc State.reset.crcK (lenByteOf [0x09, 0x00, 0xD9, 0x70, 0x10, 0x00, 0xD9, 0x70, 0x10])
        [0x09, 0x00, 0xD9, 0x70, 0x10, 0x00, 0xD9, 0x70, 0x10]
    ∧ ∃ hi lo : Byte, hi ++ lo = frameCrc State.reset.crcK (lenByteOf [0x09]) [0x09] :=
  ⟨by decide, hiByte (frameCrc 0xA001 1 [0x09]), loByte (frameCrc 0xA001 1 [0x09]), by decide⟩
theorem witness_SetModeFrameIsReportedAndViewed :
    (0x32 : Byte) ++ (0xE0 : Byte) = frameCrc State.reset.crcK (lenByteOf [0x0A, 0x01, 0x01]) [0x0A, 0x01, 0x01]
    ∧ ∃ hi lo : Byte, hi ++ lo = frameCrc State.reset.crcK (lenByteOf [0x0A]) [0x0A] :=
  ⟨by decide, hiByte (frameCrc 0xA001 1 [0x0A]), loByte (frameCrc 0xA001 1 [0x0A]), by decide⟩
set_option maxRecDepth 100000 in
theorem witness_QueryAndUnknownFramesAreReportedWithoutView :
    (0xE7 : Byte) ++ (0x41 : Byte) = frameCrc State.reset.crcK (lenByteOf [0x0B]) [0x0B]
    ∧ cmdClass 0x55 = .unknown ∧ (0x86 : Byte) ++ (0x85 : Byte)
      = frameCrc State.reset.crcK (lenByteOf [0x55, 0xA5, 0xA5, 0xA5, 0xA5]) [0x55, 0xA5, 0xA5, 0xA5, 0xA5] := by decide
theorem witness_FrameRowsAreTheirByteEvents : ∃ s : State, s.Inv ∧ s.phase = .crcHi := ⟨atCrcHi, by decide⟩
set_option maxRecDepth 100000 in
theorem witness_BlockAgreesWithFrameDecode :
    frameDecode 0xA001 true [0xA5, 0xA5, 0xA5, 0xA5, 0x01, 0x0B, 0xE7, 0x41] = .frame 0x0B []
    ∧ frameDecode 0xA001 true [0xA5, 0xA5, 0xA5, 0xA5, 0x01, 0x0B, 0xE7, 0x40] = .badChecksum
    ∧ frameDecode 0xA001 true [0xA5, 0xA5, 0xA5, 0xA5, 0x00, 0x40, 0xBF] = .emptyBody
    ∧ frameDecode 0xA001 true [0xA5, 0xA5, 0xA5, 0xA5] = .truncated ∧ frameDecode 0xA001 true [0xA5] = .badSync := by decide
theorem witness_ReferenceCodecRoundTrips : 254 < (List.replicate 255 (0 : Byte)).length
    ∧ (List.replicate 254 (0 : Byte)).length ≤ 254 := by
  simp only [List.length_replicate]; decide
theorem witness_ModeTableIsABijectionWithFallback : (8 : Byte).toNat ≤ 8 ∧ 8 < (9 : Byte).toNat
    ∧ "usb" ∉ ["USB", "LSB", "CWR", "CWL", "AM", "WFM", "NFM", "DIGI", "PKT"] := by decide
theorem witness_CycleRecordsAtMostOneResult : ∃ s : State, s.Inv ∧ s.phase = .crcLo := ⟨atCrcLo, by decide⟩
theorem witness_StaleBufferBytesAreUnobservable : ∃ s t : State, SameButStale s t ∧ s ≠ t :=
  ⟨State.reset, { State.reset with wbuf := [(0, 0x07)], resBody := [(3, 0x01)] },
    ⟨rfl, fun _ h => absurd h (Nat.not_lt_zero _), fun _ h => absurd h (Nat.not_lt_zero _)⟩, by decide⟩
theorem witness_OutsideFieldsDoNotReachTheBlock : ∃ s t : State, s.block = t.block ∧ s ≠ t :=
  ⟨State.reset, { State.reset with hRdata := 1, input := [.read 0] }, rfl, by decide⟩

end Sys2Proof.Tests
end

section
/-! PROOFS. A step is the instruction decoded from the next input record (spec/00_scope.md R9, R10;
spec/30_encoding.md R69). -/

namespace Sys2Proof.Machine

theorem runCode_of_decode {c : Code} {s : State} {i : Instr} (h : decode s.select c = .ok i) :
    runCode c s = exec i s := by
  simp only [runCode, h]

theorem runEvent_of_decode {e : Event} {s : State} {i : Instr} (h : decodeEvent s.select e = .ok i) :
    runEvent e s = exec i s := by
  simp only [runEvent_eq, h]

theorem step_of_input_nil {s : State} (h : s.input = []) : step s = runEvent .idle s := by
  simp only [step, fetch, h, runEvent]

theorem step_of_input_cons {s : State} {c : Code} {rest : List Code} (h : s.input = c :: rest) :
    step s = runCode c (s.setInput rest) := by
  simp only [step, fetch, h]

theorem decodeTableWord_eq_some {n w : Nat} {i : Instr} :
    decodeTableWord n w = some i ↔ decode selectAfterReset (tableCode n w) = .ok i := by
  unfold decodeTableWord
  cases decode selectAfterReset (tableCode n w) <;> simp [Except.toOption]

/-- Settles O35: the next record is fetched without touching the registers that decoding looks at. -/
theorem stepRunsTheDecodedInstruction : Obligations.StepRunsTheDecodedInstruction := by
  refine ⟨fun s c rest i hin hdec => ?_, fun s hin => ?_, fun n w i hw => ?_⟩
  · exact (step_of_input_cons hin).trans (runCode_of_decode hdec)
  · exact (step_of_input_nil hin).trans (runEvent_of_decode rfl)
  · have hin : (State.reset.withFetchWord n w).input = tableCode n w :: [] := rfl
    exact (step_of_input_cons hin).trans (runCode_of_decode (decodeTableWord_eq_some.mp hw))

end Sys2Proof.Machine
end

section
/-! PROOFS. What each of the five events does, and that it keeps the invariants of spec/10_state.md R37; so every
sequence of events runs on (spec/00_scope.md R10, R127). -/

namespace Sys2Proof.Machine

/-! ### The five events -/

theorem runEvent_reset (s : State) : runEvent .reset s = .next s.resetEvent :=
  runEvent_of_decode (i := .reset) rfl

theorem runEvent_idle (s : State) : runEvent .idle s = .next s.quiet := runEvent_of_decode (i := .idle) rfl

theorem runEvent_abort (s : State) : runEvent .abort s = .next s.abort := by
  by_cases h : s.phase = .hunt
  · have hdec : decodeEvent s.select .abort = .ok .abortHunt := if_pos h
    rw [runEvent_of_decode hdec, abort_of_hunt h]
    exact whenSelected_of _ h
  · have hdec : decodeEvent s.select .abort = .ok .abortFrame := if_neg h
    rw [runEvent_of_decode hdec, abort_of_frame h]
    exact whenSelected_of _ h

theorem runEvent_ctrlWrite (v : Word) (s : State) : runEvent (.hostWrite 0x000 v) s = .next (s.writeCtrl v) :=
  runEvent_of_decode (i := .hwCtrl v) rfl

theorem runEvent_cmdrWrite (v : Word) (s : State) : runEvent (.hostWrite 0x002 v) s = .next (s.commands v) :=
  runEvent_of_decode (i := .hwCmdr v) rfl

theorem runEvent_otherWrite {a : Addr} (h0 : a ≠ 0x000) (h2 : a ≠ 0x002) (v : Word) (s : State) :
    runEvent (.hostWrite a v) s = .next s.quiet := by
  have hdec : decodeEvent s.select (.hostWrite a v) = .ok (.hwNone a v) := (if_neg h0).trans (if_neg h2)
  rw [runEvent_of_decode hdec]
  exact whenSelected_of _ ⟨h0, h2⟩

/-- A byte's row in R69 is the one the block's byte port runs, but in a full body, which R37 excludes. -/
theorem runEvent_byte {s : State} (hbody : s.phase = .body → s.idx.toNat < s.len.toNat) (b : Byte) :
    runEvent (.byte b) s = deliverByte b s := by
  rw [runEvent_eq]
  simp only [decodeEvent, decodeByte, deliverByte, State.select]
  cases hp : s.phase with
  | hunt =>
    by_cases hb : b = Config.syncByte
    · by_cases hc : s.syncCnt = 3
      · simp only [hb, hc, if_true]; rfl
      · simp only [hb, hc, if_true, if_false]; rfl
    · simp only [hb, if_false]; rfl
  | len => by_cases hb : b = 0 <;> simp only [hb, if_true, if_false] <;> rfl
  | body =>
    have hlt := hbody hp
    by_cases hmore : s.idx.toNat + 1 < s.len.toNat
    · simp only [hmore, if_true]; rfl
    · have hlast : s.idx.toNat + 1 = s.len.toNat := by omega
      simp only [hlast, lt_irrefl, if_true, if_false]; rfl
  | crcHi => rfl
  | crcLo => rfl

/-- A byte always goes on: in each phase the conditions of the rows it is sent to cover every case. -/
theorem deliverByte_goesOn {s : State} (hbody : s.phase = .body → s.idx.toNat < s.len.toNat) (b : Byte) :
    goesOn (deliverByte b s) := by
  unfold deliverByte
  cases hp : s.phase with
  | hunt =>
    dsimp only
    split_ifs with hb hc
    · exact ⟨_, whenSelected_of _ ⟨hp, hc⟩⟩
    · exact ⟨_, whenSelected_of _ ⟨hp, hc⟩⟩
    · exact ⟨_, whenSelected_of _ ⟨hp, hb⟩⟩
  | len =>
    dsimp only
    split_ifs with hb
    · exact ⟨_, whenSelected_of _ hp⟩
    · exact ⟨_, whenSelected_of _ ⟨hp, hb⟩⟩
  | body =>
    have hlt := hbody hp
    dsimp only
    split_ifs with hmore
    · exact ⟨_, whenSelected_of _ ⟨hp, hmore⟩⟩
    · exact ⟨_, whenSelected_of _ ⟨hp, by omega⟩⟩
  | crcHi => exact ⟨_, whenSelected_of _ hp⟩
  | crcLo => exact ⟨_, whenSelected_of _ hp⟩

/-! ### The invariants under the operations that record no result -/

theorem State.Inv.idx_lt_len {s : State} (h : s.Inv) (hp : s.phase = .body) : s.idx.toNat < s.len.toNat := by
  obtain ⟨⟨-, -, -, hbody, -⟩, -, -⟩ := h
  exact (hbody hp).2

theorem inv_quiet {s : State} (h : s.Inv) : s.quiet.Inv := h

theorem inv_writeCtrl {s : State} (h : s.Inv) (v : Word) : (s.writeCtrl v).Inv := h

theorem inv_resetEvent {s : State} (h : s.Inv) : s.resetEvent.Inv := by
  obtain ⟨-, ⟨hwbuf, hbody, -, -⟩, -⟩ := h
  have hreset : State.reset.Inv := by decide
  obtain ⟨hparser, ⟨-, -, hidx, hcount⟩, hrecord⟩ := hreset
  exact ⟨hparser, ⟨hwbuf, hbody, by simp, by simp [Result.reset]⟩, hrecord.1, fun _ => ⟨rfl, rfl, rfl⟩,
    by simp [Result.reset]⟩

theorem inv_clears {s : State} (h : s.Inv) (v : Word) : (s.clears v).Inv := by
  obtain ⟨hparser, hbuffer, hres, hnone, hcmd⟩ := h
  refine ⟨hparser, hbuffer, hres, fun hst => ?_, hcmd⟩
  obtain ⟨hreset, hvalid, hover⟩ := hnone hst
  exact ⟨hreset, by simp [State.clears, hvalid], by simp [State.clears, hover]⟩

theorem inv_abortHunt {s : State} (h : s.Inv) : s.abortHunt.Inv := by
  obtain ⟨⟨-, hrest⟩, hbuffer, hrecord⟩ := h
  exact ⟨⟨fun _ => rfl, hrest⟩, hbuffer, hrecord⟩

theorem inv_skipByte {s : State} (h : s.Inv) : s.skipByte.Inv := by
  obtain ⟨⟨-, hrest⟩, hbuffer, hrecord⟩ := h
  exact ⟨⟨fun _ => rfl, hrest⟩, hbuffer, hrecord⟩

theorem inv_countSync {s : State} (h : s.Inv) (hp : s.phase = .hunt) : s.countSync.Inv := by
  obtain ⟨⟨-, hrest⟩, hbuffer, hrecord⟩ := h
  exact ⟨⟨fun hne => absurd hp hne, hrest⟩, hbuffer, hrecord⟩

theorem inv_lock {s : State} (h : s.Inv) : s.lock.Inv := by
  obtain ⟨-, ⟨hwbuf, hbody, -, hcount⟩, hrecord⟩ := h
  refine ⟨⟨?_, ?_, ?_, ?_, ?_⟩, ⟨hwbuf, hbody, ?_, hcount⟩, hrecord⟩ <;> simp [crcInit, Config.crcInit]

theorem inv_takeLen {s : State} (h : s.Inv) (hp : s.phase = .len) {b : Byte} (hb : b ≠ 0) : (s.takeLen b).Inv := by
  obtain ⟨⟨hsync, -, hlen, -, -⟩, hbuffer, hrecord⟩ := h
  obtain ⟨-, hidx, -, -⟩ := hlen hp
  have hpos : 0 < b.toNat := Nat.pos_of_ne_zero fun h0 => hb (BitVec.eq_of_toNat_eq h0)
  have hsync0 : s.syncCnt = 0 := hsync (by simp [hp])
  refine ⟨⟨fun _ => hsync0, ?_, ?_, ?_, ?_⟩, hbuffer, hrecord⟩ <;> simp [hidx, hpos]
  omega

theorem inv_takeLenZero {s : State} (h : s.Inv) (hp : s.phase = .len) : s.takeLenZero.Inv := by
  obtain ⟨⟨hsync, -, hlen, -, -⟩, hbuffer, hrecord⟩ := h
  obtain ⟨-, hidx, -, -⟩ := hlen hp
  have hsync0 : s.syncCnt = 0 := hsync (by simp [hp])
  refine ⟨⟨fun _ => hsync0, ?_, ?_, ?_, ?_⟩, hbuffer, hrecord⟩ <;> simp [hidx]

theorem inv_takeCrcHi {s : State} (h : s.Inv) (hp : s.phase = .crcHi) (b : Byte) : (s.takeCrcHi b).Inv := by
  obtain ⟨⟨hsync, hle, -, -, hfull⟩, hbuffer, hrecord⟩ := h
  have hsync0 : s.syncCnt = 0 := hsync (by simp [hp])
  have hidx : s.idx = s.len := hfull (.inl hp)
  refine ⟨⟨fun _ => hsync0, hle, ?_, ?_, ?_⟩, hbuffer, hrecord⟩ <;> simp [hidx]

/-- A body byte stored with room for it: `p` is the phase that fits the new index. -/
theorem inv_takeBody {s : State} (h : s.Inv) (hp : s.phase = .body) (b : Byte) {p : Phase}
    (hnext : p = .body ∧ s.idx.toNat + 1 < s.len.toNat ∨ p = .crcHi ∧ s.idx.toNat + 1 = s.len.toNat) :
    (s.takeBody b p).Inv := by
  have hlt := h.idx_lt_len hp
  obtain ⟨⟨hsync, -, -, -, -⟩, ⟨hwbuf, hbody, hheld, hcount⟩, hrecord⟩ := h
  have hsync0 : s.syncCnt = 0 := hsync (by simp [hp])
  have hlen : s.len.toNat < 256 := s.len.isLt
  have hidx : (s.idx + 1).toNat = s.idx.toNat + 1 := by
    rw [BitVec.toNat_add]; exact Nat.mod_eq_of_lt (by simp; omega)
  have hparser : (s.takeBody b p).ParserInv := by
    refine ⟨fun _ => hsync0, ?_, ?_, ?_, ?_⟩
    · rw [State.takeBody_idx, State.takeBody_len, hidx]; omega
    · rcases hnext with ⟨rfl, -⟩ | ⟨rfl, -⟩ <;> simp
    · rcases hnext with ⟨rfl, hmore⟩ | ⟨rfl, -⟩
      · simp only [State.takeBody_idx, State.takeBody_len, hidx]; omega
      · simp
    · rcases hnext with ⟨rfl, -⟩ | ⟨rfl, hlast⟩
      · simp
      · exact fun _ => BitVec.eq_of_toNat_eq (hidx.trans hlast)
  refine ⟨hparser, ⟨Memory.wf_write _ _ _ hwbuf, hbody, fun i hi => ?_, hcount⟩, hrecord⟩
  rw [State.takeBody_idx, hidx] at hi
  rw [State.takeBody_wbuf]
  by_cases hi' : i = s.idx.toNat
  · subst hi'; simp [Memory.read_write_same _ _ (show s.idx.toNat < 255 by omega)]
  · rw [Memory.read_write_of_ne _ _ hi']; exact hheld i (by omega)

/-! ### The invariants when a result is recorded -/

/-- Recording keeps the invariants when the new record has those of R37 items 7 and 9; the body is copied from
elements that all hold a value. -/
theorem inv_endFrame {s : State} (h : s.Inv) {st : Status} {ok : Bool} {rx : Word} (hst : st ≠ .none)
    (hp : s.phase ≠ .hunt) (hres : (s.newResult st ok rx).Inv) : (s.endFrame st ok rx).Inv := by
  obtain ⟨⟨hsync, hle, -, -, -⟩, ⟨hwbuf, hbody, hheld, -⟩, -⟩ := h
  have hidx : s.idx.toNat < 256 := s.idx.isLt
  have hcopied : ∀ i < s.idx.toNat,
      (copyBody s.wbuf s.resBody s.idx.toNat).read i = some (wbufByte s.wbuf i) :=
    fun i hi => read_copyBody_of_lt _ _ hi (by omega)
  refine ⟨⟨fun _ => hsync hp, hle, by simp, by simp, by simp⟩,
    ⟨hwbuf, wf_copyBody _ _ _ hbody, hheld, fun i hi => ?_⟩, hres, fun hnone => absurd hnone hst, fun hpos => ?_⟩
  · simp [hcopied i hi]
  · have hpos' : 1 ≤ s.idx.toNat := hpos
    simp [hcopied 0 hpos', State.newResult, hpos']

theorem newResult_cmd_of_idx_zero {s : State} (st : Status) (ok : Bool) (rx : Word) (h : s.idx = 0) :
    (s.newResult st ok rx).cmd = 0 := by
  simp [State.newResult, h]

theorem inv_abortFrame {s : State} (h : s.Inv) (hp : s.phase ≠ .hunt) : s.abortFrame.Inv := by
  obtain ⟨⟨-, hle, -⟩, -⟩ := id h
  exact inv_endFrame h (by simp) hp ⟨hle, by simp [State.newResult], by simp [State.newResult],
    by simp [State.newResult], fun _ => ⟨rfl, rfl, hp⟩, by simp [State.newResult], newResult_cmd_of_idx_zero _ _ _⟩

theorem inv_abort {s : State} (h : s.Inv) : s.abort.Inv := by
  by_cases hp : s.phase = .hunt
  · rw [abort_of_hunt hp]; exact inv_abortHunt h
  · rw [abort_of_frame hp]; exact inv_abortFrame h hp

theorem inv_commands {s : State} (h : s.Inv) (v : Word) : (s.commands v).Inv := by
  rw [commands_eq]
  split_ifs
  · exact inv_abort (inv_clears h v)
  · exact inv_clears h v

theorem verdict_cases (strict ok : Bool) (len : Byte) :
    (verdict strict ok len = .badCrc ∧ ok = false)
    ∨ (verdict strict ok len = .emptyBody ∧ len = 0)
    ∨ (verdict strict ok len = .ok ∧ len ≠ 0) := by
  unfold verdict
  split_ifs with hbad hlen
  · simp only [Bool.and_eq_true, Bool.not_eq_true'] at hbad
    exact .inl ⟨rfl, hbad.1⟩
  · exact .inr (.inl ⟨rfl, hlen⟩)
  · exact .inr (.inr ⟨rfl, hlen⟩)

theorem inv_takeCrcLo {s : State} (h : s.Inv) (hp : s.phase = .crcLo) (b : Byte) : (s.takeCrcLo b).Inv := by
  obtain ⟨⟨-, hle, -, -, hfull⟩, -⟩ := id h
  have hidx : s.idx = s.len := hfull (.inr hp)
  have hframe : s.phase ≠ .hunt := by simp [hp]
  unfold State.takeCrcLo
  extract_lets rx ok
  rcases verdict_cases s.strict ok s.len with ⟨hv, hok⟩ | ⟨hv, hlen⟩ | ⟨hv, hlen⟩ <;> rw [hv]
  · refine inv_endFrame h (by simp) hframe ⟨hle, fun _ => ⟨hidx, hp⟩, ?_, ?_, ?_, fun _ => hok,
      newResult_cmd_of_idx_zero _ _ _⟩ <;> simp [State.newResult]
  · refine inv_endFrame h (by simp) hframe ⟨hle, fun _ => ⟨hidx, hp⟩, fun _ => hlen, ?_, ?_, ?_,
      newResult_cmd_of_idx_zero _ _ _⟩ <;> simp [State.newResult]
  · have hpos : 1 ≤ s.len.toNat := Nat.pos_of_ne_zero fun h0 => hlen (BitVec.eq_of_toNat_eq h0)
    refine inv_endFrame h (by simp) hframe ⟨hle, fun _ => ⟨hidx, hp⟩, ?_, fun _ => hpos, ?_, ?_,
      newResult_cmd_of_idx_zero _ _ _⟩ <;> simp [State.newResult]

/-! ### Events and their sequences -/

theorem deliverByte_keeps_inv {s t : State} {b : Byte} (h : s.Inv) (ht : deliverByte b s = .next t) : t.Inv := by
  rcases deliverByte_next ht with ⟨-, -, -, rfl⟩ | ⟨hp, -, -, rfl⟩ | ⟨-, -, rfl⟩ | ⟨hp, -, rfl⟩ | ⟨hp, hb, rfl⟩
    | ⟨hp, hmore, rfl⟩ | ⟨hp, hlast, rfl⟩ | ⟨hp, rfl⟩ | ⟨hp, rfl⟩
  · exact inv_lock h
  · exact inv_countSync h hp
  · exact inv_skipByte h
  · exact inv_takeLenZero h hp
  · exact inv_takeLen h hp hb
  · exact inv_takeBody h hp b (.inl ⟨rfl, hmore⟩)
  · exact inv_takeBody h hp b (.inr ⟨rfl, hlast⟩)
  · exact inv_takeCrcHi h hp b
  · exact inv_takeCrcLo h hp b

theorem runEvent_goesOn_inv {s : State} (h : s.Inv) (e : Event) : ∃ t, runEvent e s = .next t ∧ t.Inv := by
  cases e with
  | reset => exact ⟨_, runEvent_reset s, inv_resetEvent h⟩
  | idle => exact ⟨_, runEvent_idle s, inv_quiet h⟩
  | byte b =>
    obtain ⟨t, ht⟩ := deliverByte_goesOn h.idx_lt_len b
    exact ⟨t, (runEvent_byte h.idx_lt_len b).trans ht, deliverByte_keeps_inv h ht⟩
  | abort => exact ⟨_, runEvent_abort s, inv_abort h⟩
  | hostWrite a v =>
    by_cases h0 : a = 0x000
    · subst h0; exact ⟨_, runEvent_ctrlWrite v s, inv_writeCtrl h v⟩
    by_cases h2 : a = 0x002
    · subst h2; exact ⟨_, runEvent_cmdrWrite v s, inv_commands h v⟩
    · exact ⟨_, runEvent_otherWrite h0 h2 v s, inv_quiet h⟩

/-- Settles O39, by induction on the events: each goes on from a state with the invariants and keeps them. -/
theorem everyEventSequenceHasANextState : Obligations.EveryEventSequenceHasANextState := by
  intro es
  induction es with
  | nil => exact fun s h => ⟨s, rfl, h⟩
  | cons e es ih =>
    intro s h
    obtain ⟨u, hu, hinv⟩ := runEvent_goesOn_inv h e
    obtain ⟨t, ht, htinv⟩ := ih u hinv
    exact ⟨t, andThen_next_iff.mpr ⟨u, hu, ht⟩, htinv⟩

end Sys2Proof.Machine
end

section
/-! PROOFS. The instructions and the fields of the outside agents: noninterference, by operations that commute with
blanking those fields (spec/00_scope.md R9, spec/10_state.md R38, spec/20_memory.md R52). -/

namespace Sys2Proof.Machine

/-- An answer with the outside agents' fields of its next state blanked. -/
def blockAnswer (o : Answer) : Answer := andThen o fun t => .next t.block

@[simp] theorem blockAnswer_next (t : State) : blockAnswer (.next t) = .next t.block := rfl

@[simp] theorem blockAnswer_refused (r : Refusal) : blockAnswer (.refused r) = .refused r := rfl

@[simp] theorem State.block_block (s : State) : s.block.block = s.block := rfl

/-- A meaning reads nothing of the outside agents' fields but to put it in those fields again. -/
def BlockOnly (f : State → Answer) : Prop := ∀ s, blockAnswer (f s.block) = blockAnswer (f s)

theorem BlockOnly.answers_eq {f : State → Answer} (hf : BlockOnly f) {s t : State} (h : s.block = t.block) :
    blockAnswer (f s) = blockAnswer (f t) := by
  rw [← hf s, h, hf t]

/-- Answers that are the same on the block are alike: the machine has no fault, so both go on or both refuse. -/
theorem alike_of_blockAnswer_eq {o p : Answer} (h : blockAnswer o = blockAnswer p) :
    (∃ s t, o = .next s ∧ p = .next t ∧ s.block = t.block) ∨ ∃ r, o = .refused r ∧ p = .refused r := by
  cases o with
  | fault r => cases r
  | next s =>
    cases p with
    | fault r => cases r
    | next t => exact .inl ⟨s, t, rfl, rfl, Host.Outcome.next.inj h⟩
    | refused r => cases h
  | refused r =>
    cases p with
    | fault r => cases r
    | next t => cases h
    | refused r' => cases h; exact .inr ⟨r, rfl, rfl⟩

/-! ### Closure: no test, a test of block fields, one meaning after another -/

theorem blockOnly_next {f : State → State} (h : ∀ s : State, (f s.block).block = (f s).block) :
    BlockOnly fun s => .next (f s) := fun s => congrArg Host.Outcome.next (h s)

theorem blockAnswer_whenSelected (c : Prop) [Decidable c] (t : State) :
    blockAnswer (whenSelected c t) = whenSelected c t.block := by
  by_cases hc : c <;> simp [whenSelected, hc]

/-- A row's condition and its effect on the block, each the same of the blanked state. -/
theorem blockOnly_whenSelected {c : State → Prop} [∀ s, Decidable (c s)] {f : State → State}
    (hc : ∀ s : State, c s.block ↔ c s) (hf : ∀ s : State, (f s.block).block = (f s).block) :
    BlockOnly fun s => whenSelected (c s) (f s) := by
  intro s
  simp only [blockAnswer_whenSelected, hf, hc]

theorem BlockOnly.ite {c : State → Prop} [∀ s, Decidable (c s)] {f g : State → Answer}
    (hf : BlockOnly f) (hc : ∀ s : State, c s.block ↔ c s) (hg : BlockOnly g) :
    BlockOnly fun s => if c s then f s else g s := by
  intro s
  by_cases h : c s
  · simpa [h, hc] using hf s
  · simpa [h, hc] using hg s

theorem BlockOnly.andThen {f g : State → Answer} (hf : BlockOnly f) (hg : BlockOnly g) :
    BlockOnly fun s => andThen (f s) g := by
  intro s
  rcases alike_of_blockAnswer_eq (hf s) with ⟨u, v, hu, hv, huv⟩ | ⟨r, hu, hv⟩
  · simpa [hu, hv, Machine.andThen] using hg.answers_eq huv
  · simp [hu, hv, Machine.andThen]

/-! ### The operations -/

theorem block_abort (s : State) : s.block.abort = s.abort.block := by
  by_cases h : s.phase = .hunt
  · rw [abort_of_hunt h, abort_of_hunt (s := s.block) h]; rfl
  · rw [abort_of_frame h, abort_of_frame (s := s.block) h]; rfl

theorem block_commands (s : State) (v : Word) : s.block.commands v = (s.commands v).block := by
  simp only [commands_eq, apply_ite State.block, ← block_abort]
  rfl

theorem blockOnly_huntA5 : BlockOnly execHuntA5 :=
  blockOnly_whenSelected (fun _ => Iff.rfl) fun _ => rfl

theorem blockOnly_huntLock : BlockOnly execHuntLock :=
  blockOnly_whenSelected (fun _ => Iff.rfl) fun _ => rfl

theorem blockOnly_huntSkip (b : Byte) : BlockOnly (execHuntSkip b) :=
  blockOnly_whenSelected (fun _ => Iff.rfl) fun _ => rfl

theorem blockOnly_lenByte (b : Byte) : BlockOnly (execLenByte b) :=
  blockOnly_whenSelected (fun _ => Iff.rfl) fun _ => rfl

theorem blockOnly_lenZero : BlockOnly execLenZero :=
  blockOnly_whenSelected (fun _ => Iff.rfl) fun _ => rfl

theorem blockOnly_bodyByte (b : Byte) : BlockOnly (execBodyByte b) :=
  blockOnly_whenSelected (fun _ => Iff.rfl) fun _ => rfl

theorem blockOnly_bodyLast (b : Byte) : BlockOnly (execBodyLast b) :=
  blockOnly_whenSelected (fun _ => Iff.rfl) fun _ => rfl

theorem blockOnly_crchiByte (b : Byte) : BlockOnly (execCrchiByte b) :=
  blockOnly_whenSelected (fun _ => Iff.rfl) fun _ => rfl

theorem blockOnly_crcloByte (b : Byte) : BlockOnly (execCrcloByte b) :=
  blockOnly_whenSelected (fun _ => Iff.rfl) fun _ => rfl

/-! ### Bytes and frames -/

theorem blockOnly_deliverByte (b : Byte) : BlockOnly (deliverByte b) := by
  intro s
  have hphase : s.block.phase = s.phase := rfl
  unfold deliverByte
  rw [hphase]
  cases s.phase with
  | hunt =>
    have hA5 := blockOnly_huntLock.ite (c := fun s => s.syncCnt = 3) (fun _ => Iff.rfl) blockOnly_huntA5
    exact hA5.ite (c := fun _ => b = Config.syncByte) (fun _ => Iff.rfl) (blockOnly_huntSkip b) s
  | len => exact blockOnly_lenZero.ite (c := fun _ => b = 0) (fun _ => Iff.rfl) (blockOnly_lenByte b) s
  | body =>
    exact (blockOnly_bodyByte b).ite (c := fun s => s.idx.toNat + 1 < s.len.toNat) (fun _ => Iff.rfl)
      (blockOnly_bodyLast b) s
  | crcHi => exact blockOnly_crchiByte b s
  | crcLo => exact blockOnly_crcloByte b s

theorem blockOnly_deliver (bs : List Byte) : BlockOnly (deliver bs) := by
  induction bs with
  | nil => exact blockOnly_next fun _ => rfl
  | cons b bs ih => exact (blockOnly_deliverByte b).andThen ih

/-- The view depends on the block alone and goes to a field that is not the block's. -/
theorem blockOnly_deliverFrame (lenb cmd : Byte) (tail : List Byte) : BlockOnly (deliverFrame lenb cmd tail) :=
  (blockOnly_deliver _).andThen (blockOnly_next fun _ => rfl)

/-! ### All instructions -/

theorem blockOnly_exec (i : Instr) : BlockOnly (exec i) := by
  cases i with
  | reset => exact blockOnly_next fun _ => rfl
  | idle => exact blockOnly_next fun _ => rfl
  | huntA5 => exact blockOnly_huntA5
  | huntLock => exact blockOnly_huntLock
  | huntSkip b => exact blockOnly_huntSkip b
  | lenByte b => exact blockOnly_lenByte b
  | lenZero => exact blockOnly_lenZero
  | bodyByte b => exact blockOnly_bodyByte b
  | bodyLast b => exact blockOnly_bodyLast b
  | crchiByte b => exact blockOnly_crchiByte b
  | crcloByte b => exact blockOnly_crcloByte b
  | abortHunt => exact blockOnly_whenSelected (fun _ => Iff.rfl) fun _ => rfl
  | abortFrame => exact blockOnly_whenSelected (fun _ => Iff.rfl) fun _ => rfl
  | hwCtrl v => exact blockOnly_next (f := fun s => s.writeCtrl v) fun _ => rfl
  | hwCmdr v => exact blockOnly_next (f := fun s => s.commands v) fun s => by simp [block_commands]
  | hwNone a v => exact blockOnly_whenSelected (fun _ => Iff.rfl) fun _ => rfl
  | hr a => exact blockOnly_next (f := fun s => s.readReg a) fun _ => rfl
  | cmdrAck => exact blockOnly_next fun _ => rfl
  | cmdrClrOvr => exact blockOnly_next fun _ => rfl
  | cmdrClrSkip => exact blockOnly_next fun _ => rfl
  | cmdrAbort => exact blockOnly_next fun s => by simp [block_abort]
  | setPtt lenb tail => exact blockOnly_deliverFrame lenb 0x07 tail
  | setFreq lenb tail => exact blockOnly_deliverFrame lenb 0x09 tail
  | setMode lenb tail => exact blockOnly_deliverFrame lenb 0x0A tail
  | queryStatus lenb tail => exact blockOnly_deliverFrame lenb 0x0B tail
  | unknown lenb cmd tail => exact blockOnly_deliverFrame lenb cmd tail

/-- Settles O58: every instruction is `BlockOnly`, so its two answers are the same on the block. -/
theorem outsideFieldsDoNotReachTheBlock : Obligations.OutsideFieldsDoNotReachTheBlock := by
  intro i s t h
  exact alike_of_blockAnswer_eq ((blockOnly_exec i).answers_eq h)

end Sys2Proof.Machine
end

section
/-! PROOFS. What every step keeps: a property kept by the operations that the instructions are made of is kept by
every instruction and every step, so also the invariants of spec/10_state.md R37 and the parameter `CRC_K` (R38). -/

namespace Sys2Proof.Machine

/-! ### A byte event and the byte port -/

theorem runEvent_byte_of_full {s : State} (hp : s.phase = .body) (hfull : s.len.toNat ≤ s.idx.toNat) (b : Byte) :
    runEvent (.byte b) s = .refused (.undecodable .bodyFull) := by
  have hmore : ¬ s.idx.toNat + 1 < s.len.toNat := by omega
  have hlast : ¬ s.idx.toNat + 1 = s.len.toNat := by omega
  simp only [runEvent_eq, decodeEvent, decodeByte, State.select, hp, hmore, hlast, if_false]

theorem deliverByte_of_full {s : State} (hp : s.phase = .body) (hfull : s.len.toNat ≤ s.idx.toNat) (b : Byte) :
    deliverByte b s = .refused .notSelected := by
  have hmore : ¬ s.idx.toNat + 1 < s.len.toNat := by omega
  have hlast : ¬ (s.phase = .body ∧ s.idx.toNat + 1 = s.len.toNat) := by omega
  have hrow : deliverByte b s = execBodyLast b s := by simp only [deliverByte, hp, hmore, if_false]
  exact hrow.trans (whenSelected_of_not _ hlast)

/-- In every state: where the body is full, the event is refused by the decoder and the port by the row. -/
theorem runEvent_byte_next_iff {s t : State} {b : Byte} :
    runEvent (.byte b) s = .next t ↔ deliverByte b s = .next t := by
  by_cases hfull : s.phase = .body ∧ s.len.toNat ≤ s.idx.toNat
  · obtain ⟨hp, hle⟩ := hfull
    simp [runEvent_byte_of_full hp hle, deliverByte_of_full hp hle]
  · rw [runEvent_byte fun hp => by simpa [hp] using hfull]

/-! ### A property kept by each operation is kept by every step -/

/-- A property of states that no operation of the block or of its agents takes away. -/
structure KeptByOperations (P : State → Prop) : Prop where
  quiet : ∀ {s : State}, P s → P s.quiet
  byte : ∀ {s t : State} {b : Byte}, P s → deliverByte b s = .next t → P t
  abort : ∀ {s : State}, P s → P s.abort
  clears : ∀ {s : State} (v : Word), P s → P (s.clears v)
  writeCtrl : ∀ {s : State} (v : Word), P s → P (s.writeCtrl v)
  readReg : ∀ {s : State} (a : Addr), P s → P (s.readReg a)
  resetEvent : ∀ {s : State}, P s → P s.resetEvent
  takeView : ∀ {s : State}, P s → P s.takeView
  setInput : ∀ {s : State} (l : List Code), P s → P (s.setInput l)

theorem deliver_keeps {P : State → Prop}
    (hbyte : ∀ {s t : State} {b : Byte}, P s → deliverByte b s = .next t → P t)
    {bs : List Byte} {s t : State} (h : P s) (ht : deliver bs s = .next t) : P t := by
  induction bs generalizing s with
  | nil => cases ht; exact h
  | cons b bs ih =>
    obtain ⟨u, hu, hrest⟩ := andThen_next_iff.mp ht
    exact ih (hbyte h hu) hrest

theorem deliverFrame_next {lenb cmd : Byte} {tail : List Byte} {s t : State}
    (h : deliverFrame lenb cmd tail s = .next t) :
    ∃ u, deliver (frameBytes lenb cmd tail) s = .next u ∧ t = u.takeView := by
  obtain ⟨u, hu, hview⟩ := andThen_next_iff.mp h
  cases hview
  exact ⟨u, hu, rfl⟩

theorem quiet_ack_eq_clears (s : State) : s.quiet.ack = s.clears 0x0001 := by
  simp [State.clears, State.quiet, State.setOut, State.ack]

theorem quiet_clrOvr_eq_clears (s : State) : s.quiet.clrOvr = s.clears 0x0002 := by
  simp [State.clears, State.quiet, State.setOut, State.clrOvr]

theorem quiet_clrSkip_eq_clears (s : State) : s.quiet.clrSkip = s.clears 0x0004 := by
  simp [State.clears, State.quiet, State.setOut, State.clrSkip]

section
variable {P : State → Prop} {s t : State}

theorem KeptByOperations.deliverFrame (hP : KeptByOperations P) {lenb cmd : Byte} {tail : List Byte} (h : P s)
    (ht : deliverFrame lenb cmd tail s = .next t) : P t := by
  obtain ⟨u, hu, rfl⟩ := deliverFrame_next ht
  exact hP.takeView (deliver_keeps hP.byte h hu)

theorem KeptByOperations.commands (hP : KeptByOperations P) (v : Word) (h : P s) : P (s.commands v) := by
  rw [commands_eq]
  split_ifs
  · exact hP.abort (hP.clears v h)
  · exact hP.clears v h

/-- A byte's row, where it is selected, does what the byte port does with that byte. -/
theorem KeptByOperations.byteRow (hP : KeptByOperations P) {i : Instr} {b : Byte}
    (hi : decodeByte s.select b = .ok i) (h : P s) (ht : exec i s = .next t) : P t :=
  hP.byte h (runEvent_byte_next_iff.mp ((runEvent_of_decode (e := .byte b) hi).trans ht))

theorem KeptByOperations.exec (hP : KeptByOperations P) {i : Instr} (h : P s) (ht : exec i s = .next t) : P t := by
  cases i with
  | reset => cases ht; exact hP.resetEvent h
  | idle => cases ht; exact hP.quiet h
  | huntA5 =>
    obtain ⟨⟨hp, hc⟩, -⟩ := whenSelected_next_iff.mp ht
    exact hP.byteRow (b := Config.syncByte) (by simp only [decodeByte, State.select, hp, hc, if_true, if_false]) h ht
  | huntLock =>
    obtain ⟨⟨hp, hc⟩, -⟩ := whenSelected_next_iff.mp ht
    exact hP.byteRow (b := Config.syncByte) (by simp [decodeByte, State.select, hp, hc]) h ht
  | huntSkip b =>
    obtain ⟨⟨hp, hb⟩, -⟩ := whenSelected_next_iff.mp ht
    exact hP.byteRow (b := b) (by simp [decodeByte, State.select, hp, hb]) h ht
  | lenByte b =>
    obtain ⟨⟨hp, hb⟩, -⟩ := whenSelected_next_iff.mp ht
    exact hP.byteRow (b := b) (by simp only [decodeByte, State.select, hp, hb, if_false]) h ht
  | lenZero =>
    obtain ⟨hp, -⟩ := whenSelected_next_iff.mp ht
    exact hP.byteRow (b := 0) (by simp [decodeByte, State.select, hp]) h ht
  | bodyByte b =>
    obtain ⟨⟨hp, hmore⟩, -⟩ := whenSelected_next_iff.mp ht
    exact hP.byteRow (b := b) (by simp [decodeByte, State.select, hp, hmore]) h ht
  | bodyLast b =>
    obtain ⟨⟨hp, hlast⟩, -⟩ := whenSelected_next_iff.mp ht
    exact hP.byteRow (b := b) (by simp [decodeByte, State.select, hp, hlast]) h ht
  | crchiByte b =>
    obtain ⟨hp, -⟩ := whenSelected_next_iff.mp ht
    exact hP.byteRow (b := b) (by simp [decodeByte, State.select, hp]) h ht
  | crcloByte b =>
    obtain ⟨hp, -⟩ := whenSelected_next_iff.mp ht
    exact hP.byteRow (b := b) (by simp [decodeByte, State.select, hp]) h ht
  | abortHunt =>
    obtain ⟨hp, rfl⟩ := whenSelected_next_iff.mp ht
    exact abort_of_hunt hp ▸ hP.abort h
  | abortFrame =>
    obtain ⟨hp, rfl⟩ := whenSelected_next_iff.mp ht
    exact abort_of_frame hp ▸ hP.abort h
  | hwCtrl v => cases ht; exact hP.writeCtrl v h
  | hwCmdr v => cases ht; exact hP.commands v h
  | hwNone a v => obtain ⟨-, rfl⟩ := whenSelected_next_iff.mp ht; exact hP.quiet h
  | hr a => cases ht; exact hP.readReg a h
  | cmdrAck => cases ht; exact quiet_ack_eq_clears s ▸ hP.clears _ h
  | cmdrClrOvr => cases ht; exact quiet_clrOvr_eq_clears s ▸ hP.clears _ h
  | cmdrClrSkip => cases ht; exact quiet_clrSkip_eq_clears s ▸ hP.clears _ h
  | cmdrAbort => cases ht; exact hP.abort h
  | setPtt lenb tail => exact hP.deliverFrame h ht
  | setFreq lenb tail => exact hP.deliverFrame h ht
  | setMode lenb tail => exact hP.deliverFrame h ht
  | queryStatus lenb tail => exact hP.deliverFrame h ht
  | unknown lenb cmd tail => exact hP.deliverFrame h ht

theorem runCode_next {c : Code} (h : runCode c s = .next t) :
    ∃ i, decode s.select c = .ok i ∧ exec i s = .next t := by
  unfold runCode at h
  split at h
  · next i hi => exact ⟨i, hi, h⟩
  · cases h

theorem KeptByOperations.step (hP : KeptByOperations P) (h : P s) (ht : step s = .next t) : P t := by
  obtain ⟨i, -, hi⟩ := runCode_next ht
  refine hP.exec ?_ hi
  cases hin : s.input with
  | nil => simpa only [fetch, hin] using h
  | cons c rest => simpa only [fetch, hin] using hP.setInput rest h

end

/-! ### The invariants and the build parameter -/

theorem inv_keptByOperations : KeptByOperations State.Inv where
  quiet := inv_quiet
  byte := deliverByte_keeps_inv
  abort := inv_abort
  clears v h := inv_clears h v
  writeCtrl v h := inv_writeCtrl h v
  readReg _ h := h
  resetEvent := inv_resetEvent
  takeView h := h
  setInput _ h := h

/-- Settles O37, by evaluating the invariants on the reset table. -/
theorem resetStateHasTheInvariants : Obligations.ResetStateHasTheInvariants :=
  ⟨by decide, by decide⟩

/-- Settles O38: each operation keeps the invariants, so every instruction and every step does. -/
theorem everyStepKeepsTheInvariants : Obligations.EveryStepKeepsTheInvariants :=
  fun _ _ h ht => inv_keptByOperations.step h ht

theorem deliverByte_keptByStream {s t : State} {b : Byte} (h : deliverByte b s = .next t) : KeptByStream s t := by
  rcases deliverByte_next h with ⟨-, -, -, rfl⟩ | ⟨-, -, -, rfl⟩ | ⟨-, -, rfl⟩ | ⟨-, -, rfl⟩ | ⟨-, -, rfl⟩
    | ⟨-, -, rfl⟩ | ⟨-, -, rfl⟩ | ⟨-, rfl⟩ | ⟨-, rfl⟩ <;> exact ⟨rfl, rfl, rfl, rfl, rfl⟩

theorem abort_keptByStream (s : State) : KeptByStream s s.abort := by
  unfold State.abort
  split_ifs <;> exact ⟨rfl, rfl, rfl, rfl, rfl⟩

theorem crcK_keptByOperations (k : Word) : KeptByOperations fun s => s.crcK = k where
  quiet h := h
  byte h ht := (deliverByte_keptByStream ht).crcK.trans h
  abort h := (abort_keptByStream _).crcK.trans h
  clears _ h := h
  writeCtrl _ h := h
  readReg _ h := h
  resetEvent h := h
  takeView h := h
  setInput _ h := h

theorem hostRead_paramK (s : State) : s.hostRead 0x00A = s.crcK := rfl

/-- Settles O41: no operation writes `CRC_K`, and `PARAM_K` reads it. -/
theorem noStepChangesTheBuildParameter : Obligations.NoStepChangesTheBuildParameter := by
  intro s t ht
  have hk : t.crcK = s.crcK := (crcK_keptByOperations s.crcK).step rfl ht
  exact ⟨hk, by rw [hostRead_paramK, hostRead_paramK, hk]⟩

end Sys2Proof.Machine
end

section
/-! PROOFS. What an event leaves in `Out`, `RES_VALID`, `IE` and `irq` (spec/10_state.md R21, R35, R36). -/

namespace Sys2Proof.Machine

/-! ### The fields after each operation -/

theorem abort_resValid (s : State) : s.abort.resValid = (s.resValid || s.phase != .hunt) := by
  by_cases h : s.phase = .hunt
  · simp [abort_of_hunt h, h]
  · simp [abort_of_frame h, h]

@[simp] theorem clears_resValid (s : State) (v : Word) : (s.clears v).resValid = (s.resValid && !v[0]) := rfl

@[simp] theorem clears_phase (s : State) (v : Word) : (s.clears v).phase = s.phase := rfl

/-- Acknowledge first, then abort: an abort that ends a frame records a new result (R119). -/
theorem commands_resValid (s : State) (v : Word) :
    (s.commands v).resValid = ((s.resValid && !v[0]) || (v[3] && s.phase != .hunt)) := by
  rw [commands_eq]
  cases v[3] <;> simp [abort_resValid]

theorem commands_ie (s : State) (v : Word) : (s.commands v).ie = s.ie := by
  rw [commands_eq]
  split_ifs
  · exact (abort_keptByStream _).ie
  · rfl

/-- A byte records a result in phase `CRC_LO` and in no other. -/
theorem deliverByte_records {s t : State} {b : Byte} (h : deliverByte b s = .next t) :
    (s.phase ≠ .crcLo ∧ t.out = Out.quiet ∧ t.resValid = s.resValid)
    ∨ (s.phase = .crcLo ∧ t.out = ⟨true, t.res.status⟩ ∧ t.resValid = true) := by
  rcases deliverByte_next h with ⟨hp, -, -, rfl⟩ | ⟨hp, -, -, rfl⟩ | ⟨hp, -, rfl⟩ | ⟨hp, -, rfl⟩ | ⟨hp, -, rfl⟩
    | ⟨hp, -, rfl⟩ | ⟨hp, -, rfl⟩ | ⟨hp, rfl⟩ | ⟨hp, rfl⟩
  any_goals exact .inl ⟨by simp [hp], rfl, rfl⟩
  exact .inr ⟨hp, rfl, rfl⟩

theorem deliverByte_keeps_resValid {s t : State} {b : Byte} (hv : s.resValid = true)
    (h : deliverByte b s = .next t) : t.resValid = true := by
  rcases deliverByte_records h with ⟨-, -, hkept⟩ | ⟨-, -, hset⟩
  · exact hkept.trans hv
  · exact hset

/-! ### Which events record a result (R36) -/

/-- The three kinds of event that record a result. -/
def EndsFrame (e : Event) (s : State) : Prop :=
  ((∃ b, e = .byte b) ∧ s.phase = .crcLo) ∨ (e = .abort ∧ s.phase ≠ .hunt)
    ∨ ((∃ v : Word, e = .hostWrite 0x002 v ∧ v[3] = true) ∧ s.phase ≠ .hunt)

theorem not_endsFrame_otherWrite {a : Addr} {v : Word} {s : State} (h2 : a ≠ 0x002) :
    ¬ EndsFrame (.hostWrite a v) s := by
  rintro (⟨⟨b, he⟩, -⟩ | ⟨he, -⟩ | ⟨⟨w, he, -⟩, -⟩)
  · cases he
  · cases he
  · exact h2 (Event.hostWrite.inj he).1

theorem abort_records (s : State) :
    (s.phase = .hunt ∧ s.abort.out = Out.quiet)
    ∨ (s.phase ≠ .hunt ∧ s.abort.out = ⟨true, s.abort.res.status⟩ ∧ s.abort.resValid = true) := by
  by_cases h : s.phase = .hunt
  · exact .inl ⟨h, by rw [abort_of_hunt h]; rfl⟩
  · exact .inr ⟨h, by rw [abort_of_frame h]; exact ⟨rfl, rfl⟩⟩

theorem commands_records (s : State) (v : Word) :
    (¬ (v[3] = true ∧ s.phase ≠ .hunt) ∧ (s.commands v).out = Out.quiet)
    ∨ (v[3] = true ∧ s.phase ≠ .hunt ∧ (s.commands v).out = ⟨true, (s.commands v).res.status⟩
      ∧ (s.commands v).resValid = true) := by
  rw [commands_eq]
  split_ifs with h3
  · rcases abort_records (s.clears v) with ⟨hp, hout⟩ | ⟨hp, hrec⟩
    · exact .inl ⟨fun hend => hend.2 hp, hout⟩
    · exact .inr ⟨h3, hp, hrec⟩
  · exact .inl ⟨fun hend => h3 hend.1, rfl⟩

/-- An event that ends a frame sets `Out` to the status it recorded and `RES_VALID`; any other leaves `Out` quiet. -/
theorem runEvent_records {e : Event} {s t : State} (h : runEvent e s = .next t) :
    (¬ EndsFrame e s ∧ t.out = Out.quiet)
    ∨ (EndsFrame e s ∧ t.out = ⟨true, t.res.status⟩ ∧ t.resValid = true) := by
  cases e with
  | reset => cases (runEvent_reset s).symm.trans h; exact .inl ⟨by simp [EndsFrame], rfl⟩
  | idle => cases (runEvent_idle s).symm.trans h; exact .inl ⟨by simp [EndsFrame], rfl⟩
  | byte b =>
    rcases deliverByte_records (runEvent_byte_next_iff.mp h) with ⟨hp, hout, -⟩ | ⟨hp, hrec⟩
    · exact .inl ⟨by simp [EndsFrame, hp], hout⟩
    · exact .inr ⟨.inl ⟨⟨b, rfl⟩, hp⟩, hrec⟩
  | abort =>
    cases (runEvent_abort s).symm.trans h
    rcases abort_records s with ⟨hp, hout⟩ | ⟨hp, hrec⟩
    · exact .inl ⟨by simp [EndsFrame, hp], hout⟩
    · exact .inr ⟨.inr (.inl ⟨rfl, hp⟩), hrec⟩
  | hostWrite a v =>
    by_cases h0 : a = 0x000
    · subst h0; cases (runEvent_ctrlWrite v s).symm.trans h; exact .inl ⟨by simp [EndsFrame], rfl⟩
    by_cases h2 : a = 0x002
    · subst h2
      cases (runEvent_cmdrWrite v s).symm.trans h
      rcases commands_records s v with ⟨hno, hout⟩ | ⟨h3, hp, hrec⟩
      · exact .inl ⟨by simpa [EndsFrame] using hno, hout⟩
      · exact .inr ⟨.inr (.inr ⟨⟨v, rfl, h3⟩, hp⟩), hrec⟩
    · cases (runEvent_otherWrite h0 h2 v s).symm.trans h; exact .inl ⟨not_endsFrame_otherWrite h2, rfl⟩

/-- Settles O28: an event either ends a frame and records, or leaves `Out` quiet. -/
theorem onlyThreeKindsOfEventRecord : Obligations.OnlyThreeKindsOfEventRecord := by
  intro e s t h
  rcases runEvent_records h with ⟨hno, hout⟩ | ⟨hend, hout, hvalid⟩
  · exact ⟨iff_of_false (by simp [hout, Out.quiet]) hno, by simp [hout, Out.quiet], by simp [hout, Out.quiet]⟩
  · exact ⟨iff_of_true (by simp [hout]) hend, fun _ => ⟨by simp [hout], hvalid⟩, by simp [hout]⟩

/-! ### `RES_VALID` after each instruction (R21) -/

/-- The instructions that may clear `RES_VALID`. -/
def ClearsResult (i : Instr) : Prop :=
  i = .reset ∨ i = .cmdrAck ∨ ∃ v : Word, i = .hwCmdr v ∧ v[0] = true

/-- The instructions that may record a result. -/
def RecordsResult (i : Instr) : Prop :=
  i = .abortFrame ∨ i = .cmdrAbort ∨ (∃ b, i = .crcloByte b) ∨ (∃ v : Word, i = .hwCmdr v ∧ v[3] = true)
    ∨ (∃ l w, i = .setPtt l w ∨ i = .setFreq l w ∨ i = .setMode l w ∨ i = .queryStatus l w)
    ∨ ∃ l c w, i = .unknown l c w

/-- What instruction `i` may do to `RES_VALID`: keep it, or change it as its kind allows. -/
def ResValidAfter (i : Instr) (s t : State) : Prop :=
  t.resValid = s.resValid ∨ (ClearsResult i ∧ t.resValid = false) ∨ (RecordsResult i ∧ t.resValid = true)

theorem resValidAfter_of_row {i : Instr} {c : Prop} [Decidable c] {s t u : State} (h : whenSelected c u = .next t)
    (hu : u.resValid = s.resValid) : ResValidAfter i s t := by
  obtain ⟨-, rfl⟩ := whenSelected_next_iff.mp h
  exact .inl hu

/-- A frame row keeps a valid result valid, whatever its bytes record. -/
theorem resValidAfter_of_frame {i : Instr} {lenb cmd : Byte} {tail : List Byte} {s t : State} (hi : RecordsResult i)
    (h : deliverFrame lenb cmd tail s = .next t) : ResValidAfter i s t := by
  obtain ⟨u, hu, rfl⟩ := deliverFrame_next h
  cases hs : s.resValid with
  | true =>
    have hv : u.resValid = true := deliver_keeps (P := fun s => s.resValid = true) deliverByte_keeps_resValid hs hu
    exact .inl (hv.trans hs.symm)
  | false =>
    cases hv : u.takeView.resValid with
    | true => exact .inr (.inr ⟨hi, hv⟩)
    | false => exact .inl (hv.trans hs.symm)

theorem resValidAfter_cmdrAbort (s : State) : ResValidAfter .cmdrAbort s s.abort := by
  by_cases hp : s.phase = .hunt
  · exact .inl (by simp [abort_resValid, hp])
  · exact .inr (.inr ⟨.inr (.inl rfl), by simp [abort_resValid, hp]⟩)

theorem resValidAfter_hwCmdr (s : State) (v : Word) : ResValidAfter (.hwCmdr v) s (s.commands v) := by
  have hvalid := commands_resValid s v
  cases h3 : v[3] && s.phase != .hunt with
  | true =>
    have hbit : v[3] = true := (Bool.and_eq_true_iff.mp h3).1
    exact .inr (.inr ⟨.inr (.inr (.inr (.inl ⟨v, rfl, hbit⟩))), by simp [hvalid, h3]⟩)
  | false =>
    cases h0 : v[0] with
    | true => exact .inr (.inl ⟨.inr (.inr ⟨v, rfl, h0⟩), by simp [hvalid, h3, h0]⟩)
    | false => exact .inl (by simp [hvalid, h3, h0])

theorem exec_resValidAfter {i : Instr} {s t : State} (h : exec i s = .next t) : ResValidAfter i s t := by
  cases i with
  | reset => cases h; exact .inr (.inl ⟨.inl rfl, rfl⟩)
  | idle => cases h; exact .inl rfl
  | huntA5 => exact resValidAfter_of_row h rfl
  | huntLock => exact resValidAfter_of_row h rfl
  | huntSkip b => exact resValidAfter_of_row h rfl
  | lenByte b => exact resValidAfter_of_row h rfl
  | lenZero => exact resValidAfter_of_row h rfl
  | bodyByte b => exact resValidAfter_of_row h rfl
  | bodyLast b => exact resValidAfter_of_row h rfl
  | crchiByte b => exact resValidAfter_of_row h rfl
  | crcloByte b =>
    obtain ⟨-, rfl⟩ := whenSelected_next_iff.mp h
    exact .inr (.inr ⟨.inr (.inr (.inl ⟨b, rfl⟩)), rfl⟩)
  | abortHunt => exact resValidAfter_of_row h rfl
  | abortFrame =>
    obtain ⟨-, rfl⟩ := whenSelected_next_iff.mp h
    exact .inr (.inr ⟨.inl rfl, rfl⟩)
  | hwCtrl v => cases h; exact .inl rfl
  | hwCmdr v => cases h; exact resValidAfter_hwCmdr s v
  | hwNone a v => exact resValidAfter_of_row h rfl
  | hr a => cases h; exact .inl rfl
  | cmdrAck => cases h; exact .inr (.inl ⟨.inr (.inl rfl), rfl⟩)
  | cmdrClrOvr => cases h; exact .inl rfl
  | cmdrClrSkip => cases h; exact .inl rfl
  | cmdrAbort => cases h; exact resValidAfter_cmdrAbort s
  | setPtt lenb tail => exact resValidAfter_of_frame (by simp [RecordsResult]) h
  | setFreq lenb tail => exact resValidAfter_of_frame (by simp [RecordsResult]) h
  | setMode lenb tail => exact resValidAfter_of_frame (by simp [RecordsResult]) h
  | queryStatus lenb tail => exact resValidAfter_of_frame (by simp [RecordsResult]) h
  | unknown lenb cmd tail => exact resValidAfter_of_frame (by simp [RecordsResult]) h

/-- Settles O27: a change of `RES_VALID` rules out the cases in which an instruction keeps it. -/
theorem onlyAckAndResetClearResValid : Obligations.OnlyAckAndResetClearResValid := by
  refine ⟨fun i s t h hs ht => ?_, fun i s t h hs ht => ?_, fun s t h => ?_, fun e s t h hdone => ?_, rfl⟩
  · rcases exec_resValidAfter h with hkept | ⟨hi, -⟩ | ⟨-, hset⟩
    · simp [hkept, hs] at ht
    · exact hi
    · simp [hset] at ht
  · rcases exec_resValidAfter h with hkept | ⟨-, hcleared⟩ | ⟨hi, -⟩
    · simp [hkept, hs] at ht
    · simp [hcleared] at ht
    · exact hi
  · rcases h with h | h <;> cases h <;> rfl
  · obtain ⟨-, hrecorded, -⟩ := onlyThreeKindsOfEventRecord e s t h
    exact (hrecorded hdone).2

/-! ### `irq` (R35) -/

/-- The events that lower `irq`: `Reset`, a `CTRL` write that clears `IE`, an acknowledge after which no abort records. -/
def LowersIrq (e : Event) (s : State) : Prop :=
  e = .reset ∨ (∃ v : Word, e = .hostWrite 0x000 v ∧ v[1] = false)
    ∨ ∃ v : Word, e = .hostWrite 0x002 v ∧ v[0] = true ∧ (v[3] = false ∨ s.phase = .hunt)

theorem not_lowersIrq_otherWrite {a : Addr} {v : Word} {s : State} (h0 : a ≠ 0x000) (h2 : a ≠ 0x002) :
    ¬ LowersIrq (.hostWrite a v) s := by
  rintro (he | ⟨w, he, -⟩ | ⟨w, he, -⟩)
  · cases he
  · exact h0 (Event.hostWrite.inj he).1
  · exact h2 (Event.hostWrite.inj he).1

theorem irq_eq (s : State) : s.irq = (s.ie && s.resValid) := rfl

theorem irq_true_iff {s : State} : s.irq = true ↔ s.ie = true ∧ s.resValid = true := by
  rw [irq_eq, Bool.and_eq_true_iff]

theorem statusWord_irq (irq overrun valid skip : Bool) (sync : BitVec 2) (p : Phase) :
    (statusWord irq overrun valid skip sync p)[8] = irq := by
  revert irq overrun valid skip sync
  cases p <;> decide

theorem hostRead_status (s : State) :
    s.hostRead 0x001 = statusWord s.irq s.overrun s.resValid s.skip s.syncCnt s.phase := rfl

theorem commands_irq {s : State} (v : Word) (h : s.irq = true) :
    (s.commands v).irq = false ↔ v[0] = true ∧ (v[3] = false ∨ s.phase = .hunt) := by
  obtain ⟨hie, hvalid⟩ := irq_true_iff.mp h
  rw [irq_eq, commands_ie, commands_resValid]
  cases v[3] <;> simp [hie, hvalid]

theorem runEvent_irq {e : Event} {s t : State} (h : runEvent e s = .next t) (hs : s.irq = true) :
    t.irq = false ↔ LowersIrq e s := by
  obtain ⟨hie, hvalid⟩ := irq_true_iff.mp hs
  cases e with
  | reset => cases (runEvent_reset s).symm.trans h; exact iff_of_true rfl (.inl rfl)
  | idle =>
    cases (runEvent_idle s).symm.trans h
    simp [LowersIrq, irq_eq, hie, hvalid]
  | byte b =>
    have hb := runEvent_byte_next_iff.mp h
    simp [LowersIrq, irq_eq, (deliverByte_keptByStream hb).ie, hie, deliverByte_keeps_resValid hvalid hb]
  | abort =>
    cases (runEvent_abort s).symm.trans h
    simp [LowersIrq, irq_eq, (abort_keptByStream s).ie, hie, abort_resValid, hvalid]
  | hostWrite a v =>
    by_cases h0 : a = 0x000
    · subst h0
      cases (runEvent_ctrlWrite v s).symm.trans h
      simp [LowersIrq, irq_eq, hvalid]
    by_cases h2 : a = 0x002
    · subst h2
      cases (runEvent_cmdrWrite v s).symm.trans h
      simp [LowersIrq, commands_irq v hs]
    · cases (runEvent_otherWrite h0 h2 v s).symm.trans h
      exact iff_of_false (by simp [irq_eq, hie, hvalid]) (not_lowersIrq_otherWrite h0 h2)

/-- Settles O26, by the event: what it does to `IE` and to `RES_VALID`. -/
theorem irqIsALevelOfIeAndResValid : Obligations.IrqIsALevelOfIeAndResValid := by
  intro s
  have hbit : (s.hostRead 0x001)[8] = s.irq := by rw [hostRead_status]; exact statusWord_irq ..
  exact ⟨irq_eq s, hbit, fun _ _ h hs => runEvent_irq h hs⟩

end Sys2Proof.Machine
end

section
/-! PROOFS. Buffer bytes that belong to no frame cannot be observed: noninterference, by a simulation that every event
keeps (spec/10_state.md R19, R32; 92_eei_decisions.md D16). -/

namespace Sys2Proof.Machine

/-! ### States that differ at most in stale bytes -/

/-- The other state is the first one with other buffers; every register is the same. -/
theorem SameButStale.exists_buffers {s t : State} (h : SameButStale s t) :
    ∃ w r : Memory, t = { s with wbuf := w, resBody := r } := by
  refine ⟨t.wbuf, t.resBody, ?_⟩
  have hrest := h.rest
  cases s
  cases t
  simp only [State.mk.injEq] at hrest ⊢
  tauto

theorem SameButStale.select_eq {s t : State} (h : SameButStale s t) : t.select = s.select := by
  obtain ⟨w, r, rfl⟩ := h.exists_buffers
  rfl

theorem SameButStale.out_eq {s t : State} (h : SameButStale s t) : s.out = t.out := by
  obtain ⟨w, r, rfl⟩ := h.exists_buffers
  rfl

theorem SameButStale.bodyWindow_eq {s t : State} (h : SameButStale s t) (i : Nat) :
    s.bodyWindow i = t.bodyWindow i := by
  by_cases hi : i < s.res.count.toNat
  · exact h.body i hi
  · obtain ⟨w, r, rfl⟩ := h.exists_buffers
    exact (if_neg hi).trans (if_neg hi).symm

/-- The host sees `RES_BODY` through the window only, and no byte of `WBUF`. -/
theorem SameButStale.hostRead_eq {s t : State} (h : SameButStale s t) (a : Addr) : s.hostRead a = t.hostRead a := by
  have hwindow := h.bodyWindow_eq (a.toNat - 0x100)
  obtain ⟨w, r, rfl⟩ := h.exists_buffers
  unfold State.hostRead
  rw [hwindow]
  rfl

/-! ### Operations that keep such states alike -/

/-- An operation that neither reads nor writes a buffer. -/
def IgnoresBuffers (f : State → State) : Prop :=
  ∀ (u : State) (w r : Memory), f { u with wbuf := w, resBody := r } = { f u with wbuf := w, resBody := r }

theorem IgnoresBuffers.keeps_buffers {f : State → State} (hf : IgnoresBuffers f) (s : State) :
    (f s).wbuf = s.wbuf ∧ (f s).resBody = s.resBody := by
  have h : f s = { f s with wbuf := s.wbuf, resBody := s.resBody } := hf s s.wbuf s.resBody
  exact ⟨by rw [h], by rw [h]⟩

/-- Where such an operation raises neither `IDX` nor `RES_COUNT`, no stale byte comes to belong to a frame. -/
theorem SameButStale.of_ignoresBuffers {f : State → State} (hf : IgnoresBuffers f) {s t : State}
    (h : SameButStale s t) (hidx : (f s).idx.toNat ≤ s.idx.toNat)
    (hcount : (f s).res.count.toNat ≤ s.res.count.toNat) : SameButStale (f s) (f t) := by
  obtain ⟨hw, hr⟩ := hf.keeps_buffers s
  have hbody := h.body
  have hwbuf := h.wbuf
  obtain ⟨w, r, rfl⟩ := h.exists_buffers
  rw [hf s w r]
  refine ⟨rfl, fun i hi => ?_, fun i hi => ?_⟩
  · rw [hw]; exact hwbuf i (by omega)
  · have hwindow := hbody i (by omega)
    simp only [State.bodyWindow, hi, hr, if_true, show i < s.res.count.toNat by omega] at hwindow ⊢
    exact hwindow

theorem wbufByte_write_same (m : Memory) {i : Nat} (b : Byte) (h : i < 255) : wbufByte (m.write i b) i = b := by
  simp [wbufByte, Memory.read_write_same m b h]

theorem wbufByte_write_of_ne (m : Memory) {i j : Nat} (b : Byte) (h : j ≠ i) :
    wbufByte (m.write i b) j = wbufByte m j := by
  simp [wbufByte, Memory.read_write_of_ne m b h]

/-- After recording, the body window shows the frame's own bytes. -/
theorem endFrame_bodyWindow (s : State) (st : Status) (ok : Bool) (rx : Word) {i : Nat} (hi : i < s.idx.toNat) :
    (s.endFrame st ok rx).bodyWindow i = wbufByte s.wbuf i := by
  have hbound : i < 255 := by have := s.idx.isLt; omega
  simp [State.bodyWindow, State.newResult, hi, read_copyBody_of_lt s.wbuf s.resBody hi hbound]

section
variable {s t : State} (h : SameButStale s t)
include h

/-- A body byte makes one more element belong to the frame: the one it stores. -/
theorem SameButStale.takeBody (b : Byte) (p : Phase) : SameButStale (s.takeBody b p) (t.takeBody b p) := by
  have hwbuf := h.wbuf
  have hbody := h.body
  obtain ⟨w, r, rfl⟩ := h.exists_buffers
  refine ⟨rfl, fun i hi => ?_, hbody⟩
  have hnext : i < (s.idx.toNat + 1) % 256 := by simpa [BitVec.toNat_add] using hi
  have hbound : s.idx.toNat < 256 := s.idx.isLt
  simp only [State.takeBody_wbuf]
  by_cases hlast : i = s.idx.toNat
  · have hroom : s.idx.toNat < 255 := by omega
    subst hlast
    rw [wbufByte_write_same _ _ hroom, wbufByte_write_same _ _ hroom]
  · rw [wbufByte_write_of_ne _ _ hlast, wbufByte_write_of_ne _ _ hlast]
    exact hwbuf i (by omega)

theorem SameButStale.newResult_eq (st : Status) (ok : Bool) (rx : Word) :
    s.newResult st ok rx = t.newResult st ok rx := by
  have hwbuf := h.wbuf 0
  obtain ⟨w, r, rfl⟩ := h.exists_buffers
  by_cases hpos : 1 ≤ s.idx.toNat
  · simp only [State.newResult, hpos, if_true, hwbuf hpos]
  · simp only [State.newResult, hpos, if_false]

/-- Recording copies the elements below `IDX`, and these become the ones below `RES_COUNT`. -/
theorem SameButStale.endFrame (st : Status) (ok : Bool) (rx : Word) :
    SameButStale (s.endFrame st ok rx) (t.endFrame st ok rx) := by
  have hwbuf := h.wbuf
  have hres := h.newResult_eq st ok rx
  obtain ⟨w, r, rfl⟩ := h.exists_buffers
  refine ⟨?_, hwbuf, fun i (hi : i < s.idx.toNat) => ?_⟩
  · simp only [State.endFrame, State.emit, hres]
  · rw [endFrame_bodyWindow s st ok rx hi, hwbuf i hi]
    exact (endFrame_bodyWindow { s with wbuf := w, resBody := r } st ok rx hi).symm

theorem SameButStale.takeCrcLo (b : Byte) : SameButStale (s.takeCrcLo b) (t.takeCrcLo b) := by
  have hend := h.endFrame (verdict s.strict (crcCmp (wordOfBytes s.crcRxHi b) s.crc) s.len)
    (crcCmp (wordOfBytes s.crcRxHi b) s.crc) (wordOfBytes s.crcRxHi b)
  obtain ⟨w, r, rfl⟩ := h.exists_buffers
  exact hend

theorem SameButStale.quiet : SameButStale s.quiet t.quiet :=
  h.of_ignoresBuffers (f := State.quiet) (fun _ _ _ => rfl) le_rfl le_rfl

theorem SameButStale.abortHunt : SameButStale s.abortHunt t.abortHunt :=
  h.of_ignoresBuffers (f := State.abortHunt) (fun _ _ _ => rfl) le_rfl le_rfl

theorem SameButStale.countSync : SameButStale s.countSync t.countSync :=
  h.of_ignoresBuffers (f := State.countSync) (fun _ _ _ => rfl) le_rfl le_rfl

theorem SameButStale.skipByte : SameButStale s.skipByte t.skipByte :=
  h.of_ignoresBuffers (f := State.skipByte) (fun _ _ _ => rfl) le_rfl le_rfl

theorem SameButStale.lock : SameButStale s.lock t.lock :=
  h.of_ignoresBuffers (f := State.lock) (fun _ _ _ => rfl) (Nat.zero_le _) le_rfl

theorem SameButStale.takeLenZero : SameButStale s.takeLenZero t.takeLenZero :=
  h.of_ignoresBuffers (f := State.takeLenZero) (fun _ _ _ => rfl) le_rfl le_rfl

theorem SameButStale.takeLen (b : Byte) : SameButStale (s.takeLen b) (t.takeLen b) :=
  h.of_ignoresBuffers (f := fun s => s.takeLen b) (fun _ _ _ => rfl) le_rfl le_rfl

theorem SameButStale.takeCrcHi (b : Byte) : SameButStale (s.takeCrcHi b) (t.takeCrcHi b) :=
  h.of_ignoresBuffers (f := fun s => s.takeCrcHi b) (fun _ _ _ => rfl) le_rfl le_rfl

theorem SameButStale.writeCtrl (v : Word) : SameButStale (s.writeCtrl v) (t.writeCtrl v) :=
  h.of_ignoresBuffers (f := fun s => s.writeCtrl v) (fun _ _ _ => rfl) le_rfl le_rfl

theorem SameButStale.clears (v : Word) : SameButStale (s.clears v) (t.clears v) :=
  h.of_ignoresBuffers (f := fun s => s.clears v) (fun _ _ _ => rfl) le_rfl le_rfl

theorem SameButStale.resetEvent : SameButStale s.resetEvent t.resetEvent :=
  h.of_ignoresBuffers (f := State.resetEvent) (fun _ _ _ => rfl) (Nat.zero_le _) (Nat.zero_le _)

theorem SameButStale.abort : SameButStale s.abort t.abort := by
  have hphase : t.phase = s.phase := congrArg Select.phase h.select_eq
  by_cases hp : s.phase = .hunt
  · rw [abort_of_hunt hp, abort_of_hunt (hphase.trans hp)]
    exact h.abortHunt
  · rw [abort_of_frame hp, abort_of_frame (hphase ▸ hp)]
    exact h.endFrame .truncated false 0x0000

theorem SameButStale.commands (v : Word) : SameButStale (s.commands v) (t.commands v) := by
  rw [commands_eq, commands_eq]
  split_ifs
  · exact (h.clears v).abort
  · exact h.clears v

end

/-! ### Events and their sequences -/

/-- Where the one answer goes on, so does the other, to a state that differs at most in stale bytes. -/
def FollowedBy (o p : Answer) : Prop := ∀ s, o = .next s → ∃ t, p = .next t ∧ SameButStale s t

theorem followedBy_next {s t : State} (h : SameButStale s t) : FollowedBy (.next s) (.next t) := by
  intro s' hs
  cases hs
  exact ⟨t, rfl, h⟩

/-- A row with condition `c` on the registers of R69 and an effect that keeps the states alike. -/
theorem SameButStale.row {s t s₁ t₁ : State} (h : SameButStale s t) (c : Select → Prop) [∀ x, Decidable (c x)]
    (h₁ : SameButStale s₁ t₁) : FollowedBy (whenSelected (c s.select) s₁) (whenSelected (c t.select) t₁) := by
  rw [h.select_eq]
  intro s' hs
  obtain ⟨hc, rfl⟩ := whenSelected_next_iff.mp hs
  exact ⟨t₁, whenSelected_of _ hc, h₁⟩

/-- The choice of the row looks at registers only, and each row keeps the states alike. -/
theorem deliverByte_followedBy {s t : State} (h : SameButStale s t) (b : Byte) :
    FollowedBy (deliverByte b s) (deliverByte b t) := by
  obtain ⟨hphase, hsync, hidx, hlen⟩ := Select.mk.inj h.select_eq
  simp only [deliverByte, hphase, hsync, hidx, hlen]
  cases s.phase with
  | hunt =>
    dsimp only
    split_ifs
    · exact h.row (fun x => x.phase = .hunt ∧ x.syncCnt = 3) h.lock
    · exact h.row (fun x => x.phase = .hunt ∧ x.syncCnt ≠ 3) h.countSync
    · exact h.row (fun x => x.phase = .hunt ∧ b ≠ Config.syncByte) h.skipByte
  | len =>
    dsimp only
    split_ifs
    · exact h.row (fun x => x.phase = .len) h.takeLenZero
    · exact h.row (fun x => x.phase = .len ∧ b ≠ 0) (h.takeLen b)
  | body =>
    dsimp only
    split_ifs
    · exact h.row (fun x => x.phase = .body ∧ x.idx.toNat + 1 < x.len.toNat) (h.takeBody b .body)
    · exact h.row (fun x => x.phase = .body ∧ x.idx.toNat + 1 = x.len.toNat) (h.takeBody b .crcHi)
  | crcHi => exact h.row (fun x => x.phase = .crcHi) (h.takeCrcHi b)
  | crcLo => exact h.row (fun x => x.phase = .crcLo) (h.takeCrcLo b)

theorem runEvent_followedBy {s t : State} (h : SameButStale s t) (e : Event) :
    FollowedBy (runEvent e s) (runEvent e t) := by
  cases e with
  | reset => rw [runEvent_reset, runEvent_reset]; exact followedBy_next h.resetEvent
  | idle => rw [runEvent_idle, runEvent_idle]; exact followedBy_next h.quiet
  | byte b =>
    intro s' hs
    obtain ⟨t', ht, hst⟩ := deliverByte_followedBy h b s' (runEvent_byte_next_iff.mp hs)
    exact ⟨t', runEvent_byte_next_iff.mpr ht, hst⟩
  | abort => rw [runEvent_abort, runEvent_abort]; exact followedBy_next h.abort
  | hostWrite a v =>
    by_cases h0 : a = 0x000
    · subst h0; rw [runEvent_ctrlWrite, runEvent_ctrlWrite]; exact followedBy_next (h.writeCtrl v)
    by_cases h2 : a = 0x002
    · subst h2; rw [runEvent_cmdrWrite, runEvent_cmdrWrite]; exact followedBy_next (h.commands v)
    · rw [runEvent_otherWrite h0 h2, runEvent_otherWrite h0 h2]; exact followedBy_next h.quiet

theorem runEvents_followedBy (es : List Event) {s t : State} (h : SameButStale s t) :
    FollowedBy (runEvents es s) (runEvents es t) := by
  induction es generalizing s t with
  | nil => exact followedBy_next h
  | cons e es ih =>
    intro s' hs
    obtain ⟨u, hu, hrest⟩ := andThen_next_iff.mp hs
    obtain ⟨v, hv, huv⟩ := runEvent_followedBy h e u hu
    obtain ⟨t', ht, hst⟩ := ih huv s' hrest
    exact ⟨t', andThen_next_iff.mpr ⟨v, hv, ht⟩, hst⟩

/-- Settles O57: the relation is kept by every event, and the host port cannot tell two related states apart. -/
theorem staleBufferBytesAreUnobservable : Obligations.StaleBufferBytesAreUnobservable := by
  intro s t h
  refine ⟨h.hostRead_eq, fun es s' hs => ?_⟩
  obtain ⟨t', ht, hst⟩ := runEvents_followedBy es h s' hs
  exact ⟨t', ht, hst, hst.out_eq, hst.hostRead_eq⟩

end Sys2Proof.Machine
end

section
/-! PROOFS. The CRC field is high byte first (spec/20_memory.md R41, spec/30_encoding.md R61, spec/40_crc.md R79). -/

namespace Sys2Proof.Machine

theorem wordOfBytes_toNat (hi lo : Byte) : (wordOfBytes hi lo).toNat = 256 * hi.toNat + lo.toNat := by
  rw [wordOfBytes, BitVec.toNat_append, ← Nat.shiftLeft_add_eq_or_of_lt lo.isLt, Nat.shiftLeft_eq]
  omega

theorem wordOfBytes_inj {a b c d : Byte} : wordOfBytes a b = wordOfBytes c d ↔ a = c ∧ b = d := by
  simp only [← BitVec.toNat_inj, wordOfBytes_toNat]
  have hb := b.isLt
  have hd := d.isLt
  omega

theorem hiByte_toNat (w : Word) : (hiByte w).toNat = w.toNat / 256 := by
  have hw := w.isLt
  rw [hiByte, BitVec.extractLsb'_toNat, Nat.shiftRight_eq_div_pow]
  omega

theorem loByte_toNat (w : Word) : (loByte w).toNat = w.toNat % 256 := by
  rw [loByte, BitVec.extractLsb'_toNat, Nat.shiftRight_zero]

theorem wordOfBytes_hiByte_loByte (w : Word) : wordOfBytes (hiByte w) (loByte w) = w := by
  apply BitVec.eq_of_toNat_eq
  rw [wordOfBytes_toNat, hiByte_toNat, loByte_toNat]
  exact Nat.div_add_mod _ 256

theorem crcCmp_eq_true_iff {rx c : Word} : crcCmp rx c = true ↔ rx = c := beq_iff_eq

/-- Settles O47: as numbers the two bytes are the quotient and the remainder by 256, so they determine the word and
it determines them. -/
theorem checksumFieldIsHighByteFirst : Obligations.ChecksumFieldIsHighByteFirst := by
  refine ⟨fun hi lo => ⟨wordOfBytes_toNat hi lo, ?_⟩, fun v => ⟨rfl, wordOfBytes_hiByte_loByte v⟩⟩
  rw [crcCmp_eq_true_iff, wordOfBytes_inj]
  exact ⟨fun h => h.2, fun h => ⟨h.symm, h⟩⟩

end Sys2Proof.Machine
end

section
/-! PROOFS. Which host actions are idempotent (spec/20_memory.md R52). -/

namespace Sys2Proof.Machine

theorem hostRead_readReg (s : State) (a b : Addr) : (s.readReg a).hostRead b = s.hostRead b := rfl

theorem writeCtrl_writeCtrl (s : State) (v : Word) : (s.writeCtrl v).writeCtrl v = s.writeCtrl v := rfl

theorem clears_clears (s : State) (v : Word) : (s.clears v).clears v = s.clears v := by
  simp [State.clears]

theorem commands_of_no_abort (s : State) {v : Word} (h : v[3] = false) : s.commands v = s.clears v := by
  simp [commands_eq, h]

theorem abort_phase (s : State) : s.abort.phase = .hunt := by
  by_cases h : s.phase = .hunt
  · rw [abort_of_hunt h]; exact h
  · rw [abort_of_frame h]; rfl

/-- Outside `HUNT` an abort leaves `SYNC_CNT` as it is, and R37 has it 0 there. -/
theorem abort_syncCnt {s : State} (h : s.phase ≠ .hunt → s.syncCnt = 0) : s.abort.syncCnt = 0 := by
  by_cases hp : s.phase = .hunt
  · rw [abort_of_hunt hp]; rfl
  · rw [abort_of_frame hp]; exact h hp

/-- With no frame and no partial marker there is nothing to throw away. -/
theorem abort_of_nothing_in_progress {s : State} (hp : s.phase = .hunt) (hc : s.syncCnt = 0) :
    s.abort = s.quiet := by
  rw [abort_of_hunt hp]
  simp [State.abortHunt, State.quiet, State.setOut, skipOnAbort, hc]

/-- An abort leaves nothing in progress, so a state it does not change has nothing in progress. -/
theorem abort_eq_quiet_iff {s : State} : s.abort = s.quiet ↔ s.phase = .hunt ∧ s.syncCnt = 0 := by
  refine ⟨fun h => ?_, fun ⟨hp, hc⟩ => abort_of_nothing_in_progress hp hc⟩
  have hp : s.phase = .hunt := (congrArg State.phase h).symm.trans (abort_phase s)
  have hc : s.abort.syncCnt = 0 := abort_syncCnt (absurd hp)
  exact ⟨hp, (congrArg State.syncCnt h).symm.trans hc⟩

/-- Settles O25: the clearing commands set their flags to a value that does not depend on how often they run, and
after one abort a second finds nothing in progress. -/
theorem hostActionsAreIdempotent : Obligations.HostActionsAreIdempotent := by
  intro s
  refine ⟨fun a b t h => ?_, fun v t h => ?_, fun v t hv h => ?_, fun hsync t h => ?_, ?_⟩
  · cases h; exact hostRead_readReg s a b
  · cases h; exact congrArg Host.Outcome.next (writeCtrl_writeCtrl s v)
  · cases h
    refine congrArg Host.Outcome.next ?_
    rw [commands_of_no_abort s hv, commands_of_no_abort _ hv, clears_clears]
  · cases h
    exact congrArg Host.Outcome.next (abort_of_nothing_in_progress (abort_phase s) (abort_syncCnt hsync))
  · exact ⟨fun h => abort_eq_quiet_iff.mp (Host.Outcome.next.inj h),
      fun h => congrArg Host.Outcome.next (abort_eq_quiet_iff.mpr h)⟩

end Sys2Proof.Machine
end

section
/-! PROOFS. `STRICT` is read at the verdict only: outside `CRC_LO` the stream events commute with setting it
(spec/10_state.md R33, spec/20_memory.md R56). -/

namespace Sys2Proof.Machine

/-- The state with another value of `STRICT`. -/
def State.withStrict (s : State) (v : Bool) : State := { s with strict := v }

/-- An answer with another value of `STRICT` in its next state. -/
def strictAnswer (v : Bool) (o : Answer) : Answer := andThen o fun t => .next (t.withStrict v)

theorem strictAnswer_whenSelected (v : Bool) (c : Prop) [Decidable c] (t : State) :
    strictAnswer v (whenSelected c t) = whenSelected c (t.withStrict v) := by
  by_cases h : c
  · rw [whenSelected_of t h, whenSelected_of _ h]; rfl
  · rw [whenSelected_of_not t h, whenSelected_of_not _ h]; rfl

theorem abort_withStrict (s : State) (v : Bool) : (s.withStrict v).abort = s.abort.withStrict v := by
  by_cases h : s.phase = .hunt
  · rw [abort_of_hunt h, abort_of_hunt (s := s.withStrict v) h]; rfl
  · rw [abort_of_frame h, abort_of_frame (s := s.withStrict v) h]; rfl

/-- Of a byte's rows only that of `CRC_LO` gives the verdict. -/
theorem deliverByte_withStrict {s : State} (hp : s.phase ≠ .crcLo) (b : Byte) (v : Bool) :
    deliverByte b (s.withStrict v) = strictAnswer v (deliverByte b s) := by
  have hphase : (s.withStrict v).phase = s.phase := rfl
  have hsync : (s.withStrict v).syncCnt = s.syncCnt := rfl
  have hidx : (s.withStrict v).idx = s.idx := rfl
  have hlen : (s.withStrict v).len = s.len := rfl
  simp only [deliverByte, hphase, hsync, hidx, hlen]
  cases hcase : s.phase with
  | hunt =>
    dsimp only
    split_ifs
    · exact (strictAnswer_whenSelected v _ s.lock).symm
    · exact (strictAnswer_whenSelected v _ s.countSync).symm
    · exact (strictAnswer_whenSelected v _ s.skipByte).symm
  | len =>
    dsimp only
    split_ifs
    · exact (strictAnswer_whenSelected v _ s.takeLenZero).symm
    · exact (strictAnswer_whenSelected v _ (s.takeLen b)).symm
  | body =>
    dsimp only
    split_ifs
    · exact (strictAnswer_whenSelected v _ (s.takeBody b .body)).symm
    · exact (strictAnswer_whenSelected v _ (s.takeBody b .crcHi)).symm
  | crcHi => exact (strictAnswer_whenSelected v _ (s.takeCrcHi b)).symm
  | crcLo => exact absurd hcase hp

/-- Settles O16: an `Idle`, a byte outside `CRC_LO` and an abort each commute with setting `STRICT`. -/
theorem strictMattersOnlyAtVerdict : Obligations.StrictMattersOnlyAtVerdict := by
  intro e s t v hp hreset hwrite h
  show runEvent e (s.withStrict v) = .next (t.withStrict v)
  cases e with
  | reset => exact absurd rfl hreset
  | hostWrite a w => exact absurd rfl (hwrite a w)
  | idle => cases (runEvent_idle s).symm.trans h; exact runEvent_idle _
  | abort =>
    cases (runEvent_abort s).symm.trans h
    exact (runEvent_abort _).trans (congrArg Host.Outcome.next (abort_withStrict s v))
  | byte b =>
    rw [runEvent_byte_next_iff] at h ⊢
    rw [deliverByte_withStrict hp, h]
    rfl

end Sys2Proof.Machine
end

section
/-! PROOFS. The encoder and the decoder invert each other, and R69 gives every event exactly one row
(spec/30_encoding.md R58, R64, R69, R70); the records that encode nothing are refused by name. -/

namespace Sys2Proof.Machine

/-! ### The conditions of the rows (R69) -/

section
variable {x : Select} {b : Byte}

@[simp] theorem selected_huntA5 :
    Instr.huntA5.selected x = true ↔ x.phase = .hunt ∧ x.syncCnt ≠ 3 := by
  simp [Instr.selected]

@[simp] theorem selected_huntLock :
    Instr.huntLock.selected x = true ↔ x.phase = .hunt ∧ x.syncCnt = 3 := by
  simp [Instr.selected]

@[simp] theorem selected_huntSkip : (Instr.huntSkip b).selected x = true ↔ x.phase = .hunt := by simp [Instr.selected]

@[simp] theorem selected_lenByte : (Instr.lenByte b).selected x = true ↔ x.phase = .len := by simp [Instr.selected]

@[simp] theorem selected_lenZero : Instr.lenZero.selected x = true ↔ x.phase = .len := by simp [Instr.selected]

@[simp] theorem selected_bodyByte :
    (Instr.bodyByte b).selected x = true ↔ x.phase = .body ∧ x.idx.toNat + 1 < x.len.toNat := by
  simp [Instr.selected]

@[simp] theorem selected_bodyLast :
    (Instr.bodyLast b).selected x = true ↔ x.phase = .body ∧ x.idx.toNat + 1 = x.len.toNat := by
  simp [Instr.selected]

@[simp] theorem selected_crchiByte :
    (Instr.crchiByte b).selected x = true ↔ x.phase = .crcHi := by
  simp [Instr.selected]

@[simp] theorem selected_crcloByte :
    (Instr.crcloByte b).selected x = true ↔ x.phase = .crcLo := by
  simp [Instr.selected]

@[simp] theorem selected_abortHunt : Instr.abortHunt.selected x = true ↔ x.phase = .hunt := by simp [Instr.selected]

@[simp] theorem selected_abortFrame : Instr.abortFrame.selected x = true ↔ x.phase ≠ .hunt := by simp [Instr.selected]

@[simp] theorem wellFormed_huntSkip : (Instr.huntSkip b).wellFormed = true ↔ b ≠ Config.syncByte := by
  simp [Instr.wellFormed]

@[simp] theorem wellFormed_lenByte : (Instr.lenByte b).wellFormed = true ↔ b ≠ 0 := by simp [Instr.wellFormed]

@[simp] theorem wellFormed_hwNone {a : Addr} {v : Word} :
    (Instr.hwNone a v).wellFormed = true ↔ a ≠ 0x000 ∧ a ≠ 0x002 := by
  simp [Instr.wellFormed]

@[simp] theorem wellFormed_unknown {lenb cmd : Byte} {tail : List Byte} :
    (Instr.unknown lenb cmd tail).wellFormed = true ↔ isDefinedCmd cmd = false ∧ frameTailOk lenb tail = true := by
  simp [Instr.wellFormed]

end

/-! ### Frames: the row of a command type -/

theorem cmdClass_cases (c : Byte) :
    (c = 0x07 ∧ cmdClass c = .setPtt) ∨ (c = 0x09 ∧ cmdClass c = .setFreq) ∨ (c = 0x0A ∧ cmdClass c = .setMode)
    ∨ (c = 0x0B ∧ cmdClass c = .queryStatus) ∨ (isDefinedCmd c = false ∧ cmdClass c = .unknown) := by
  unfold cmdClass
  split_ifs with h7 h9 hA hB
  · exact .inl ⟨h7, rfl⟩
  · exact .inr (.inl ⟨h9, rfl⟩)
  · exact .inr (.inr (.inl ⟨hA, rfl⟩))
  · exact .inr (.inr (.inr (.inl ⟨hB, rfl⟩)))
  · exact .inr (.inr (.inr (.inr ⟨by simpa [isDefinedCmd, and_assoc] using ⟨h7, h9, hA, hB⟩, rfl⟩)))

theorem frameInstr_of_undefined {lenb cmd : Byte} {tail : List Byte} (h : isDefinedCmd cmd = false) :
    frameInstr lenb cmd tail = .unknown lenb cmd tail := by
  rcases cmdClass_cases cmd with ⟨rfl, -⟩ | ⟨rfl, -⟩ | ⟨rfl, -⟩ | ⟨rfl, -⟩ | ⟨-, hclass⟩
  iterate 4 exact absurd h (by decide)
  simp only [frameInstr, hclass]

theorem frameInstr_wellFormed (lenb cmd : Byte) (tail : List Byte) :
    (frameInstr lenb cmd tail).wellFormed = frameTailOk lenb tail := by
  rcases cmdClass_cases cmd with ⟨-, hclass⟩ | ⟨-, hclass⟩ | ⟨-, hclass⟩ | ⟨-, hclass⟩ | ⟨hundef, hclass⟩
  any_goals simp only [frameInstr, hclass, Instr.wellFormed]
  simp [hundef]

theorem frameInstr_selected (x : Select) (lenb cmd : Byte) (tail : List Byte) :
    (frameInstr lenb cmd tail).selected x = true := by
  unfold frameInstr
  cases cmdClass cmd <;> rfl

theorem encode_frameInstr (lenb cmd : Byte) (tail : List Byte) :
    encode (frameInstr lenb cmd tail) = .frame (frameBytes lenb cmd tail) := by
  rcases cmdClass_cases cmd with ⟨hcmd, hclass⟩ | ⟨hcmd, hclass⟩ | ⟨hcmd, hclass⟩ | ⟨hcmd, hclass⟩ | ⟨-, hclass⟩
  any_goals simp only [frameInstr, hclass, encode]
  all_goals rw [hcmd]

theorem decodeFrame_frameBytes {lenb cmd : Byte} {tail : List Byte} (h : frameTailOk lenb tail = true) :
    decodeFrame (frameBytes lenb cmd tail) = .ok (frameInstr lenb cmd tail) := by
  simp [frameBytes, marker, decodeFrame, h]

/-- A frame record is decoded only when it is the bytes of a frame of the right length (R57, R58). -/
theorem decodeFrame_ok {bs : List Byte} {i : Instr} (h : decodeFrame bs = .ok i) :
    ∃ lenb cmd tail, bs = frameBytes lenb cmd tail ∧ frameTailOk lenb tail = true ∧ i = frameInstr lenb cmd tail := by
  unfold decodeFrame at h
  split at h
  · next s0 s1 s2 s3 lenb cmd tail =>
    split_ifs at h with hmarker hlen
    obtain ⟨rfl, rfl, rfl, rfl⟩ := hmarker
    cases h
    exact ⟨lenb, cmd, tail, rfl, hlen, rfl⟩
  · cases h

/-! ### Decoding what was encoded -/

theorem decode_byteCode (x : Select) (b : Byte) : decode x (byteCode b) = decodeByte x b :=
  decode_eventCode x (.byte b)

/-- Settles O31, row by row: the operand and state conditions of a row pick its branch of the decoder. -/
theorem decodeInvertsEncode : Obligations.DecodeInvertsEncode := by
  intro i x hw hs
  cases i with
  | reset => rfl
  | idle => rfl
  | huntA5 =>
    obtain ⟨hp, hc⟩ := selected_huntA5.mp hs
    simp only [encode, decode_byteCode, decodeByte, hp, hc, if_true, if_false]
  | huntLock =>
    obtain ⟨hp, hc⟩ := selected_huntLock.mp hs
    simp only [encode, decode_byteCode, decodeByte, hp, hc, if_true]
  | huntSkip b =>
    have hp := selected_huntSkip.mp hs
    have hb := wellFormed_huntSkip.mp hw
    simp only [encode, decode_byteCode, decodeByte, hp, hb, if_false]
  | lenByte b =>
    have hp := selected_lenByte.mp hs
    have hb := wellFormed_lenByte.mp hw
    simp only [encode, decode_byteCode, decodeByte, hp, hb, if_false]
  | lenZero =>
    have hp := selected_lenZero.mp hs
    simp only [encode, decode_byteCode, decodeByte, hp, if_true]
  | bodyByte b =>
    obtain ⟨hp, hmore⟩ := selected_bodyByte.mp hs
    simp only [encode, decode_byteCode, decodeByte, hp, hmore, if_true]
  | bodyLast b =>
    obtain ⟨hp, hlast⟩ := selected_bodyLast.mp hs
    simp only [encode, decode_byteCode, decodeByte, hp, hlast, lt_irrefl, if_true, if_false]
  | crchiByte b =>
    have hp := selected_crchiByte.mp hs
    simp only [encode, decode_byteCode, decodeByte, hp]
  | crcloByte b =>
    have hp := selected_crcloByte.mp hs
    simp only [encode, decode_byteCode, decodeByte, hp]
  | abortHunt =>
    have hp := selected_abortHunt.mp hs
    exact (decode_eventCode x .abort).trans (if_pos hp)
  | abortFrame =>
    have hp := selected_abortFrame.mp hs
    exact (decode_eventCode x .abort).trans (if_neg hp)
  | hwCtrl v => rfl
  | hwCmdr v => rfl
  | hwNone a v =>
    obtain ⟨h0, h2⟩ := wellFormed_hwNone.mp hw
    exact (decode_eventCode x (.hostWrite a v)).trans ((if_neg h0).trans (if_neg h2))
  | hr a => rfl
  | cmdrAck => rfl
  | cmdrClrOvr => rfl
  | cmdrClrSkip => rfl
  | cmdrAbort => rfl
  | setPtt lenb tail => exact decodeFrame_frameBytes (cmd := 0x07) hw
  | setFreq lenb tail => exact decodeFrame_frameBytes (cmd := 0x09) hw
  | setMode lenb tail => exact decodeFrame_frameBytes (cmd := 0x0A) hw
  | queryStatus lenb tail => exact decodeFrame_frameBytes (cmd := 0x0B) hw
  | unknown lenb cmd tail =>
    obtain ⟨hundef, hlen⟩ := wellFormed_unknown.mp hw
    exact (decodeFrame_frameBytes hlen).trans (congrArg Except.ok (frameInstr_of_undefined hundef))

/-! ### What decoding answers -/

theorem decodeByte_ok {x : Select} {b : Byte} {i : Instr} (h : decodeByte x b = .ok i) :
    i.wellFormed = true ∧ i.selected x = true ∧ encode i = byteCode b := by
  unfold decodeByte at h
  cases hp : x.phase <;> simp only [hp] at h
  case hunt =>
    split_ifs at h with hb hc <;> cases h
    · exact ⟨rfl, selected_huntLock.mpr ⟨hp, hc⟩, hb ▸ rfl⟩
    · exact ⟨rfl, selected_huntA5.mpr ⟨hp, hc⟩, hb ▸ rfl⟩
    · exact ⟨wellFormed_huntSkip.mpr hb, selected_huntSkip.mpr hp, rfl⟩
  case len =>
    split_ifs at h with hb <;> cases h
    · exact ⟨rfl, selected_lenZero.mpr hp, hb ▸ rfl⟩
    · exact ⟨wellFormed_lenByte.mpr hb, selected_lenByte.mpr hp, rfl⟩
  case body =>
    split_ifs at h with hmore hlast <;> cases h
    · exact ⟨rfl, selected_bodyByte.mpr ⟨hp, hmore⟩, rfl⟩
    · exact ⟨rfl, selected_bodyLast.mpr ⟨hp, hlast⟩, rfl⟩
  case crcHi => cases h; exact ⟨rfl, selected_crchiByte.mpr hp, rfl⟩
  case crcLo => cases h; exact ⟨rfl, selected_crcloByte.mpr hp, rfl⟩

theorem decodeEvent_ok {x : Select} {e : Event} {i : Instr} (h : decodeEvent x e = .ok i) :
    i.wellFormed = true ∧ i.selected x = true ∧ encode i = eventCode e := by
  cases e with
  | reset => cases h; exact ⟨rfl, rfl, rfl⟩
  | idle => cases h; exact ⟨rfl, rfl, rfl⟩
  | byte b => exact decodeByte_ok h
  | abort =>
    simp only [decodeEvent] at h
    split_ifs at h with hp <;> cases h
    · exact ⟨rfl, selected_abortHunt.mpr hp, rfl⟩
    · exact ⟨rfl, selected_abortFrame.mpr hp, rfl⟩
  | hostWrite a v =>
    simp only [decodeEvent] at h
    split_ifs at h with h0 h2 <;> cases h
    · exact ⟨rfl, rfl, h0 ▸ rfl⟩
    · exact ⟨rfl, rfl, h2 ▸ rfl⟩
    · exact ⟨wellFormed_hwNone.mpr ⟨h0, h2⟩, rfl, rfl⟩

theorem decodeCmdr_ok {v : Word} {i : Instr} (h : decodeCmdr v = .ok i) (x : Select) :
    i.wellFormed = true ∧ i.selected x = true := by
  simp only [decodeCmdr] at h
  split_ifs at h <;> cases h <;> exact ⟨rfl, rfl⟩

theorem decode_event_ok {x : Select} {w : BitVec 12} {a : Addr} {v : Word} {i : Instr}
    (h : decode x (.event w a v) = .ok i) : ∃ e, eventOf w a v = .ok e ∧ decodeEvent x e = .ok i := by
  simp only [decode] at h
  split at h
  · next e he => exact ⟨e, he, h⟩
  · cases h

theorem decode_ok {x : Select} {c : Code} {i : Instr} (h : decode x c = .ok i) :
    i.wellFormed = true ∧ i.selected x = true ∧ ∀ bs : List Byte, c = .frame bs → encode i = c := by
  cases c with
  | event w a v =>
    obtain ⟨e, -, he⟩ := decode_event_ok h
    obtain ⟨hw, hs, -⟩ := decodeEvent_ok he
    exact ⟨hw, hs, fun bs hc => by cases hc⟩
  | read a => cases h; exact ⟨rfl, rfl, fun bs hc => by cases hc⟩
  | cmdr v =>
    obtain ⟨hw, hs⟩ := decodeCmdr_ok h x
    exact ⟨hw, hs, fun bs hc => by cases hc⟩
  | frame bytes =>
    obtain ⟨lenb, cmd, tail, rfl, hlen, rfl⟩ := decodeFrame_ok h
    exact ⟨(frameInstr_wellFormed ..).trans hlen, frameInstr_selected .., fun _ _ => encode_frameInstr ..⟩

/-- Settles O32: each format's decoder answers its own rows, and O31 decodes them again. -/
theorem decodedInstructionsAreWellFormed : Obligations.DecodedInstructionsAreWellFormed := by
  intro x c i h
  obtain ⟨hw, hs, hframe⟩ := decode_ok h
  exact ⟨hw, hs, decodeInvertsEncode i x hw hs, hframe⟩

/-! ### The dispatch table is complete and unambiguous -/

theorem decodeByte_total {x : Select} (h : x.phase = .body → x.idx.toNat < x.len.toNat) (b : Byte) :
    ∃ i, decodeByte x b = .ok i := by
  unfold decodeByte
  cases hp : x.phase <;> dsimp only
  case body =>
    have hlt := h hp
    split_ifs with hmore hlast
    · exact ⟨_, rfl⟩
    · exact ⟨_, rfl⟩
    · omega
  case crcHi => exact ⟨_, rfl⟩
  case crcLo => exact ⟨_, rfl⟩
  all_goals split_ifs <;> exact ⟨_, rfl⟩

theorem decodeEvent_total {x : Select} (h : x.phase = .body → x.idx.toNat < x.len.toNat) (e : Event) :
    ∃ i, decodeEvent x e = .ok i := by
  cases e with
  | byte b => exact decodeByte_total h b
  | reset => exact ⟨_, rfl⟩
  | idle => exact ⟨_, rfl⟩
  | abort => simp only [decodeEvent]; split_ifs <;> exact ⟨_, rfl⟩
  | hostWrite a v => simp only [decodeEvent]; split_ifs <;> exact ⟨_, rfl⟩

/-- Settles O30: decoding is total there, and by O31 any row that encodes to the event is the one decoded. -/
theorem everyEventSelectsExactlyOneRow : Obligations.EveryEventSelectsExactlyOneRow := by
  intro s e hbody
  obtain ⟨i, hi⟩ := decodeEvent_total (x := s.select) hbody e
  obtain ⟨hw, hs, henc⟩ := decodeEvent_ok hi
  refine ⟨i, hi, hw, hs, henc, fun j hwj hsj hj => ?_, runEvent_of_decode hi⟩
  have hdec : decode s.select (eventCode e) = .ok j := hj ▸ decodeInvertsEncode j s.select hwj hsj
  rw [decode_eventCode, hi] at hdec
  exact (Except.ok.inj hdec).symm

/-! ### Records that encode nothing -/

theorem runCode_of_decode_error {c : Code} {s : State} {e : DecodeError} (h : decode s.select c = .error e) :
    runCode c s = .refused (.undecodable e) := by
  simp only [runCode, h]

/-- Kinds 5 to 7 are none of the five kinds, and bit 8 is looked at before the kind (R70). -/
theorem eventOf_reserved {w : BitVec 12} (h : w[8] = true ∨ 5 ≤ (w >>> 9).toNat) (a : Addr) (v : Word) :
    ∃ e, eventOf w a v = .error e := by
  unfold eventOf
  by_cases h8 : w[8] = true
  · exact ⟨_, if_pos h8⟩
  · have hkind : 5 ≤ (w.extractLsb' 9 3).toNat := by
      have hshift := h.resolve_left h8
      have hlt := w.isLt
      simp only [BitVec.toNat_ushiftRight, BitVec.extractLsb'_toNat, Nat.shiftRight_eq_div_pow] at hshift ⊢
      omega
    have hne : ∀ k : BitVec 3, k.toNat < 5 → w.extractLsb' 9 3 ≠ k := fun k hk he => by rw [he] at hkind; omega
    exact ⟨_, (if_neg h8).trans ((if_neg (hne 0 (by decide))).trans ((if_neg (hne 1 (by decide))).trans
      ((if_neg (hne 2 (by decide))).trans ((if_neg (hne 3 (by decide))).trans (if_neg (hne 4 (by decide)))))))⟩

theorem decode_event_reserved {w : BitVec 12} (h : w[8] = true ∨ 5 ≤ (w >>> 9).toNat) (x : Select) (a : Addr)
    (v : Word) : ∃ e, decode x (.event w a v) = .error e := by
  obtain ⟨e, he⟩ := eventOf_reserved h a v
  exact ⟨e, by simp only [decode, he]⟩

theorem and_low_nibble (v : Word) : v &&& 0xF = (v.extractLsb' 0 4).setWidth 16 := by
  apply BitVec.eq_of_toNat_eq
  have hand : (v &&& 0xF).toNat = v.toNat % 2 ^ 4 := Nat.and_two_pow_sub_one_eq_mod v.toNat 4
  rw [hand, BitVec.toNat_setWidth, BitVec.extractLsb'_toNat, Nat.shiftRight_zero]
  omega

theorem decodeCmdr_notOneCommand {v : Word} (h1 : v &&& 0xF ≠ 1) (h2 : v &&& 0xF ≠ 2) (h4 : v &&& 0xF ≠ 4)
    (h8 : v &&& 0xF ≠ 8) : decodeCmdr v = .error .notOneCommand := by
  rw [and_low_nibble] at h1 h2 h4 h8
  simp only [decodeCmdr]
  split_ifs with hc hc hc hc
  · exact absurd (by rw [hc]; rfl) h1
  · exact absurd (by rw [hc]; rfl) h2
  · exact absurd (by rw [hc]; rfl) h4
  · exact absurd (by rw [hc]; rfl) h8
  · rfl

theorem decodeFrame_noMarker {bs : List Byte} (hlen : 6 ≤ bs.length) (h : bs.take 4 ≠ [0xA5, 0xA5, 0xA5, 0xA5]) :
    decodeFrame bs = .error .frameNoMarker := by
  match bs, hlen, h with
  | s0 :: s1 :: s2 :: s3 :: lenb :: cmd :: tail, _, h =>
    refine if_neg fun ⟨h0, h1, h2, h3⟩ => h ?_
    rw [h0, h1, h2, h3]
    rfl

/-- Settles O33: each reserved record falls through every branch of its format's decoder to the named error. -/
theorem reservedRecordsAreRefused : Obligations.ReservedRecordsAreRefused := by
  refine fun s => ⟨fun w a v h => ?_, fun v h1 h2 h4 h8 => ?_, fun bs hlen h => ?_, fun b hp hfull => ?_⟩
  · obtain ⟨e, he⟩ := decode_event_reserved h s.select a v
    exact ⟨e, he, runCode_of_decode_error he⟩
  · exact runCode_of_decode_error (decodeCmdr_notOneCommand h1 h2 h4 h8)
  · exact runCode_of_decode_error (decodeFrame_noMarker hlen h)
  · exact runEvent_byte_of_full hp hfull b

/-- Settles O34, by reading each word out of the table (log entries 14, 15). -/
theorem tableWordsDecodeToTheirRows : Obligations.TableWordsDecodeToTheirRows := by
  unfold Obligations.TableWordsDecodeToTheirRows
  decide

end Sys2Proof.Machine
end

section
/-! PROOFS. Where a row is selected it goes on, and an event row stops elsewhere (spec/30_encoding.md R69, log entry 12);
a frame row is the run of its `Byte` events (R57, R58, R70, log entries 8, 9). -/

namespace Sys2Proof.Machine

/-! ### Event rows: one condition per row -/

theorem whenSelected_congr {c d : Prop} [Decidable c] [Decidable d] (t : State) (h : c ↔ d) :
    whenSelected c t = whenSelected d t := if_congr h rfl rfl

/-- A row without a condition in its meaning is one that R69 always selects. -/
theorem next_eq_whenSelected {c : Prop} [Decidable c] (t : State) (h : c) : .next t = whenSelected c t :=
  (whenSelected_of t h).symm

/-- The condition in each event row's meaning is the row's own: its operand and its state condition. -/
theorem exec_eq_whenSelected {i : Instr} (hi : ∀ bs, encode i ≠ .frame bs) (s : State) :
    ∃ t, exec i s = whenSelected (i.wellFormed = true ∧ i.selected s.select = true) t := by
  cases i with
  | reset => exact ⟨_, next_eq_whenSelected _ ⟨rfl, rfl⟩⟩
  | idle => exact ⟨_, next_eq_whenSelected _ ⟨rfl, rfl⟩⟩
  | huntA5 => exact ⟨_, whenSelected_congr _ (by simp [Instr.wellFormed, State.select])⟩
  | huntLock => exact ⟨_, whenSelected_congr _ (by simp [Instr.wellFormed, State.select])⟩
  | huntSkip b => exact ⟨_, whenSelected_congr _ (by simp [State.select, and_comm])⟩
  | lenByte b => exact ⟨_, whenSelected_congr _ (by simp [State.select, and_comm])⟩
  | lenZero => exact ⟨_, whenSelected_congr _ (by simp [Instr.wellFormed, State.select])⟩
  | bodyByte b => exact ⟨_, whenSelected_congr _ (by simp [Instr.wellFormed, State.select])⟩
  | bodyLast b => exact ⟨_, whenSelected_congr _ (by simp [Instr.wellFormed, State.select])⟩
  | crchiByte b => exact ⟨_, whenSelected_congr _ (by simp [Instr.wellFormed, State.select])⟩
  | crcloByte b => exact ⟨_, whenSelected_congr _ (by simp [Instr.wellFormed, State.select])⟩
  | abortHunt => exact ⟨_, whenSelected_congr _ (by simp [Instr.wellFormed, State.select])⟩
  | abortFrame => exact ⟨_, whenSelected_congr _ (by simp [Instr.wellFormed, State.select])⟩
  | hwCtrl v => exact ⟨_, next_eq_whenSelected _ ⟨rfl, rfl⟩⟩
  | hwCmdr v => exact ⟨_, next_eq_whenSelected _ ⟨rfl, rfl⟩⟩
  | hwNone a v => exact ⟨_, whenSelected_congr _ (by simp [Instr.selected])⟩
  | hr a => exact ⟨_, next_eq_whenSelected _ ⟨rfl, rfl⟩⟩
  | cmdrAck => exact ⟨_, next_eq_whenSelected _ ⟨rfl, rfl⟩⟩
  | cmdrClrOvr => exact ⟨_, next_eq_whenSelected _ ⟨rfl, rfl⟩⟩
  | cmdrClrSkip => exact ⟨_, next_eq_whenSelected _ ⟨rfl, rfl⟩⟩
  | cmdrAbort => exact ⟨_, next_eq_whenSelected _ ⟨rfl, rfl⟩⟩
  | setPtt lenb tail => exact absurd rfl (hi _)
  | setFreq lenb tail => exact absurd rfl (hi _)
  | setMode lenb tail => exact absurd rfl (hi _)
  | queryStatus lenb tail => exact absurd rfl (hi _)
  | unknown lenb cmd tail => exact absurd rfl (hi _)

/-- Settles O36: outside its condition an event row's meaning is the refusal. -/
theorem rowsStopOutsideTheirCondition : Obligations.RowsStopOutsideTheirCondition := by
  intro i s hi hout
  obtain ⟨t, ht⟩ := exec_eq_whenSelected hi s
  exact ht.trans (whenSelected_of_not _ fun ⟨hw, hs⟩ => by simp [hw, hs] at hout)

/-! ### Frame rows: the bytes, then the view -/

theorem deliver_eq_runEvents {s : State} (h : s.Inv) (bs : List Byte) :
    deliver bs s = runEvents (bytesAsEvents bs) s := by
  induction bs generalizing s with
  | nil => rfl
  | cons b bs ih =>
    obtain ⟨u, hu⟩ := deliverByte_goesOn h.idx_lt_len b
    have hrun : runEvent (.byte b) s = .next u := (runEvent_byte h.idx_lt_len b).trans hu
    calc deliver (b :: bs) s = deliver bs u := by rw [deliver_cons, hu, andThen_next]
      _ = runEvents (bytesAsEvents bs) u := ih (deliverByte_keeps_inv h hu)
      _ = andThen (runEvent (.byte b) s) (runEvents (bytesAsEvents bs)) := by rw [hrun, andThen_next]

theorem deliver_goesOn {s : State} (h : s.Inv) (bs : List Byte) : goesOn (deliver bs s) := by
  obtain ⟨t, ht, -⟩ := everyEventSequenceHasANextState (bytesAsEvents bs) s h
  exact ⟨t, (deliver_eq_runEvents h bs).trans ht⟩

theorem deliverFrame_of_deliver {lenb cmd : Byte} {tail : List Byte} {s u : State}
    (h : deliver (frameBytes lenb cmd tail) s = .next u) : deliverFrame lenb cmd tail s = .next u.takeView := by
  rw [deliverFrame, h, andThen_next]

theorem KeptByStream.trans {s t u : State} (h₁ : KeptByStream s t) (h₂ : KeptByStream t u) : KeptByStream s u where
  strict := h₂.strict.trans h₁.strict
  ie := h₂.ie.trans h₁.ie
  crcK := h₂.crcK.trans h₁.crcK
  hRdata := h₂.hRdata.trans h₁.hRdata
  input := h₂.input.trans h₁.input

theorem deliver_keptByStream {bs : List Byte} {s t : State} (h : deliver bs s = .next t) : KeptByStream s t :=
  deliver_keeps (P := KeptByStream s) (fun hs hb => hs.trans (deliverByte_keptByStream hb)) ⟨rfl, rfl, rfl, rfl, rfl⟩ h

/-- Settles O52: every frame row is `deliverFrame` of its command byte, whose bytes run as their events do. -/
theorem frameRowsAreTheirByteEvents : Obligations.FrameRowsAreTheirByteEvents := by
  intro s lenb cmd tail h
  obtain ⟨u, hu⟩ := deliver_goesOn h (frameBytes lenb cmd tail)
  have hframe : deliverFrame lenb cmd tail s = .next u.takeView := deliverFrame_of_deliver hu
  refine ⟨u, (deliver_eq_runEvents h _).symm.trans hu, deliver_keptByStream hu, ?_, ?_, ?_, ?_, hframe⟩ <;>
    · rintro rfl
      exact hframe

theorem deliverFrame_goesOn {s : State} (h : s.Inv) (lenb cmd : Byte) (tail : List Byte) :
    goesOn (deliverFrame lenb cmd tail s) := by
  obtain ⟨u, hu⟩ := deliver_goesOn h (frameBytes lenb cmd tail)
  exact ⟨_, deliverFrame_of_deliver hu⟩

/-- Settles O40: an event row by its condition, a frame row because its bytes go on. -/
theorem everyInstructionCompletesWhenSelected : Obligations.EveryInstructionCompletesWhenSelected := by
  intro i s h hw hs
  by_cases hi : ∀ bs, encode i ≠ .frame bs
  · obtain ⟨t, ht⟩ := exec_eq_whenSelected hi s
    exact ⟨t, ht.trans (whenSelected_of t ⟨hw, hs⟩)⟩
  · cases i with
    | setPtt lenb tail => exact deliverFrame_goesOn h lenb 0x07 tail
    | setFreq lenb tail => exact deliverFrame_goesOn h lenb 0x09 tail
    | setMode lenb tail => exact deliverFrame_goesOn h lenb 0x0A tail
    | queryStatus lenb tail => exact deliverFrame_goesOn h lenb 0x0B tail
    | unknown lenb cmd tail => exact deliverFrame_goesOn h lenb cmd tail
    | _ => exact absurd (fun bs hc => by cases hc) hi

end Sys2Proof.Machine
end

section
/-! PROOFS. A clock cycle records at most one result (spec/30_encoding.md R67, R68, R136): the event that records one
leaves `PHASE = HUNT`, where the events that may follow it in the cycle record nothing. -/

namespace Sys2Proof.Machine

/-! ### Running events, counting `done` and gathering `Out` -/

theorem countDone_cons {e : Event} {es : List Event} {s u : State} (h : runEvent e s = .next u) :
    countDone (e :: es) s = (if u.out.done then 1 else 0) + countDone es u := by
  simp only [countDone, h]

theorem runGather_cons {e : Event} {es : List Event} {o : Out} {s u : State} (h : runEvent e s = .next u) :
    runGather (e :: es) o s = runGather es (mergeOut o u.out) u := by
  simp only [runGather, h]

theorem runEvents_cons_next {e : Event} {es : List Event} {s t : State} (h : runEvents (e :: es) s = .next t) :
    ∃ u, runEvent e s = .next u ∧ runEvents es u = .next t := andThen_next_iff.mp h

/-- The first `Out` with `done = 1` is the cycle's (R68). -/
theorem runGather_of_done {es : List Event} {o : Out} {s t : State} (ho : o.done = true)
    (h : runEvents es s = .next t) : runGather es o s = some (t, o) := by
  induction es generalizing s with
  | nil => cases h; rfl
  | cons e es ih =>
    obtain ⟨u, hu, hrest⟩ := runEvents_cons_next h
    rw [runGather_cons hu, mergeOut, if_pos ho]
    exact ih hrest

/-! ### After the event that records -/

theorem phase_of_endsFrame {e : Event} {s t : State} (hend : EndsFrame e s) (h : runEvent e s = .next t) :
    t.phase = .hunt := by
  obtain ⟨⟨b, rfl⟩, hp⟩ | ⟨rfl, -⟩ | ⟨⟨v, rfl, h3⟩, -⟩ := hend
  · have ht := runEvent_byte_next_iff.mp h
    simp only [deliverByte, hp] at ht
    obtain ⟨-, rfl⟩ := whenSelected_next_iff.mp ht
    rfl
  · cases (runEvent_abort s).symm.trans h
    exact abort_phase s
  · cases (runEvent_cmdrWrite v s).symm.trans h
    rw [commands_eq, if_pos h3]
    exact abort_phase _

theorem deliverByte_hunt_keeps_result {b : Byte} {s t : State} (hp : s.phase = .hunt) (h : deliverByte b s = .next t) :
    t.out = Out.quiet ∧ t.res = s.res ∧ t.resValid = s.resValid := by
  simp only [deliverByte, hp] at h
  split_ifs at h <;> obtain ⟨-, rfl⟩ := whenSelected_next_iff.mp h <;> exact ⟨rfl, rfl, rfl⟩

/-- Events that from `HUNT` record nothing and leave the last result as it is. -/
def SilentInHunt (es : List Event) : Prop :=
  ∀ s t : State, s.phase = .hunt → runEvents es s = .next t →
    countDone es s = 0 ∧ t.res = s.res ∧ t.resValid = s.resValid

theorem silentInHunt_nil : SilentInHunt [] := by
  intro s t _ h
  cases h
  exact ⟨rfl, rfl, rfl⟩

theorem silentInHunt_byte (b : Byte) : SilentInHunt [.byte b] := by
  intro s t hp h
  obtain ⟨u, hu, hrest⟩ := runEvents_cons_next h
  cases hrest
  obtain ⟨hout, hres, hvalid⟩ := deliverByte_hunt_keeps_result hp (runEvent_byte_next_iff.mp hu)
  exact ⟨by rw [countDone_cons hu, hout]; rfl, hres, hvalid⟩

theorem SilentInHunt.abort {es : List Event} (hes : SilentInHunt es) : SilentInHunt (.abort :: es) := by
  intro s t hp h
  obtain ⟨u, hu, hrest⟩ := runEvents_cons_next h
  obtain rfl : s.abortHunt = u := by
    cases (runEvent_abort s).symm.trans hu
    exact (abort_of_hunt hp).symm
  obtain ⟨hcount, hres, hvalid⟩ := hes s.abortHunt t hp hrest
  exact ⟨by rw [countDone_cons hu, hcount]; rfl, hres, hvalid⟩

/-! ### At most one result -/

/-- Events of which at most one records, and then the gathered `Out` reports the result that the last state holds. -/
def RecordsAtMostOnce (es : List Event) : Prop :=
  ∀ s t : State, runEvents es s = .next t →
    (runGather es Out.quiet s = some (t, Out.quiet) ∧ countDone es s = 0)
    ∨ (runGather es Out.quiet s = some (t, ⟨true, t.res.status⟩) ∧ countDone es s = 1 ∧ t.resValid = true)

theorem recordsAtMostOnce_nil : RecordsAtMostOnce [] := by
  intro s t h
  cases h
  exact .inl ⟨rfl, rfl⟩

/-- One more event in front: either it records nothing, or what follows is silent from the `HUNT` it leaves. -/
theorem RecordsAtMostOnce.cons {es : List Event} (honce : RecordsAtMostOnce es) (hsilent : SilentInHunt es)
    (e : Event) : RecordsAtMostOnce (e :: es) := by
  intro s t h
  obtain ⟨u, hu, hrest⟩ := runEvents_cons_next h
  rw [runGather_cons hu, countDone_cons hu]
  rcases runEvent_records hu with ⟨-, hout⟩ | ⟨hend, hout, hvalid⟩
  · rw [hout]
    simpa [mergeOut, Out.quiet] using honce u t hrest
  · obtain ⟨hcount, hres, hkept⟩ := hsilent u t (phase_of_endsFrame hend hu) hrest
    have hgather : runGather es u.out u = some (t, u.out) := runGather_of_done (by rw [hout]) hrest
    refine .inr ⟨?_, by simp [hout, hcount], hkept.trans hvalid⟩
    rw [hres, ← hout]
    exact hgather

theorem recordsAtMostOnce_single (e : Event) : RecordsAtMostOnce [e] := recordsAtMostOnce_nil.cons silentInHunt_nil e

/-! ### The events of a cycle -/

/-- The stream events of a cycle: `Abort` before `Byte` (R68). -/
def streamEvents (p : Ports) : List Event :=
  (if p.inAbort then [.abort] else []) ++ if p.inValid then [.byte p.inData] else []

/-- The events that the strobes of a cycle stand for: the host's write first (R68). -/
def strobedEvents (p : Ports) : List Event :=
  (if p.hWe then [.hostWrite p.hAddr p.hWdata] else []) ++ streamEvents p

theorem cycleEvents_of_rst {p : Ports} (h : p.rst = true) : cycleEvents p = [.reset] := if_pos h

theorem cycleEvents_of_not_rst {p : Ports} (h : p.rst = false) :
    cycleEvents p = if p.hWe || p.inAbort || p.inValid then strobedEvents p else [.idle] := by
  unfold cycleEvents strobedEvents streamEvents
  rw [h]
  cases p.hWe <;> cases p.inAbort <;> cases p.inValid <;> rfl

theorem streamEvents_silentInHunt (p : Ports) : SilentInHunt (streamEvents p) := by
  have hbyte : SilentInHunt (if p.inValid then [.byte p.inData] else []) := by
    split_ifs
    · exact silentInHunt_byte p.inData
    · exact silentInHunt_nil
  unfold streamEvents
  cases p.inAbort with
  | false => exact hbyte
  | true => exact hbyte.abort

theorem streamEvents_recordsAtMostOnce (p : Ports) : RecordsAtMostOnce (streamEvents p) := by
  unfold streamEvents
  cases p.inAbort <;> cases p.inValid
  · exact recordsAtMostOnce_nil
  · exact recordsAtMostOnce_single _
  · exact recordsAtMostOnce_single _
  · exact (recordsAtMostOnce_single _).cons (silentInHunt_byte p.inData) .abort

theorem cycleEvents_recordsAtMostOnce (p : Ports) : RecordsAtMostOnce (cycleEvents p) := by
  cases hrst : p.rst with
  | true => exact cycleEvents_of_rst hrst ▸ recordsAtMostOnce_single .reset
  | false =>
    rw [cycleEvents_of_not_rst hrst]
    split_ifs
    · unfold strobedEvents
      cases p.hWe with
      | false => exact streamEvents_recordsAtMostOnce p
      | true => exact (streamEvents_recordsAtMostOnce p).cons (streamEvents_silentInHunt p) _
    · exact recordsAtMostOnce_single .idle

theorem runCycle_of_runGather {p : Ports} {s t : State} {o : Out}
    (h : runGather (cycleEvents p) Out.quiet s = some (t, o)) :
    runCycle p s = some (t, ⟨s.hostRead p.hAddr, s.irq, o⟩) := by
  rw [runCycle, h, Option.map_some]

/-- Settles O56: the cycle's events go on from the invariants, and at most one of them records. -/
theorem cycleRecordsAtMostOneResult : Obligations.CycleRecordsAtMostOneResult := by
  intro s p h
  refine ⟨cycleEvents_of_rst, fun hrst => ?_, ?_⟩
  · simpa [strobedEvents, streamEvents] using cycleEvents_of_not_rst hrst
  obtain ⟨t, ht, -⟩ := everyEventSequenceHasANextState (cycleEvents p) s h
  rcases cycleEvents_recordsAtMostOnce p s t ht with ⟨hgather, hcount⟩ | ⟨hgather, hcount, hvalid⟩
  · exact ⟨t, _, runCycle_of_runGather hgather, ht, by omega, by simp [hcount, Out.quiet], by simp [Out.quiet],
      fun _ => rfl⟩
  · exact ⟨t, _, runCycle_of_runGather hgather, ht, by omega, by simp [hcount], fun _ => ⟨rfl, hvalid⟩, by simp⟩

end Sys2Proof.Machine
end

section
/-! PROOFS. The CRC engine (spec/40_crc.md): a bit step is linear over XOR, so `crc_byte` is, and its folded form and
its table form agree with it (R74, R75, R78, R82). -/

namespace Sys2Proof.Machine

/-! ### One bit (R74) -/

theorem crcBit_getLsbD_15 (k c : Word) (d : Bool) :
    (crcBit k c d).getLsbD 15 = ((c.getLsbD 0 ^^ d) && k.getLsbD 15) := by
  unfold crcBit
  cases c.getLsbD 0 ^^ d <;> simp

/-- Where bit 0 and the data bit agree, a bit step is a plain shift. -/
theorem crcBit_of_agree {k c : Word} {d : Bool} (h : c.getLsbD 0 = d) : crcBit k c d = c >>> 1 := by
  rw [crcBit, h, Bool.xor_self]; exact BitVec.xor_zero

theorem crcBit_xor (k c c' : Word) (d d' : Bool) :
    crcBit k (c ^^^ c') (d ^^ d') = crcBit k c d ^^^ crcBit k c' d' := by
  have hfeed : ((c ^^^ c').getLsbD 0 ^^ (d ^^ d')) = ((c.getLsbD 0 ^^ d) ^^ (c'.getLsbD 0 ^^ d')) := by
    simp only [BitVec.getLsbD_xor, Bool.xor_assoc, Bool.xor_left_comm]
  have hsum (p q : Bool) :
      (if p ^^ q then k else 0x0000) = (if p then k else 0x0000) ^^^ (if q then k else 0x0000) := by
    cases p <;> cases q <;> simp
  simp only [crcBit, hfeed, hsum, BitVec.ushiftRight_xor_distrib]
  ac_rfl

/-! ### Eight bits (R75) -/

theorem crcBits_xor (k c c' : Word) (b b' : Byte) (n : Nat) :
    crcBits k (c ^^^ c') (b ^^^ b') n = crcBits k c b n ^^^ crcBits k c' b' n := by
  induction n with
  | zero => rfl
  | succ n ih => simp only [crcBits, ih, BitVec.getLsbD_xor, crcBit_xor]

theorem crcByte_xor (k c c' : Word) (b b' : Byte) :
    crcByte k (c ^^^ c') (b ^^^ b') = crcByte k c b ^^^ crcByte k c' b' := crcBits_xor k c c' b b' 8

theorem crcShifts_xor (k c c' : Word) (n : Nat) :
    crcShifts k (c ^^^ c') n = crcShifts k c n ^^^ crcShifts k c' n := by
  induction n with
  | zero => rfl
  | succ n ih => exact (congrArg (crcBit k · false) ih).trans (crcBit_xor k _ _ false false)

/-- Shifts over a register whose low `n` bits are zero feed nothing back. -/
theorem crcShifts_of_low_zero {k c : Word} {n : Nat} (h : ∀ i < n, c.getLsbD i = false) :
    crcShifts k c n = c >>> n := by
  induction n with
  | zero => simp [crcShifts]
  | succ n ih =>
    have hbit : (c >>> n).getLsbD 0 = false := by simpa using h n (Nat.lt_succ_self n)
    rw [crcShifts, ih fun i hi => h i (Nat.lt_succ_of_lt hi), crcBit_of_agree hbit, BitVec.shiftRight_add]

/-- Folding the byte in first: after `n` steps the two forms differ by the bits of `b` not yet used. -/
theorem crcShifts_fold (k c : Word) (b : Byte) {n : Nat} (hn : n ≤ 8) :
    crcShifts k (c ^^^ b.setWidth 16) n = crcBits k c b n ^^^ b.setWidth 16 >>> n := by
  induction n with
  | zero => simp [crcShifts, crcBits]
  | succ n ih =>
    have hbit : (b.setWidth 16 >>> n).getLsbD 0 = b.getLsbD n := by
      simp [show n < 16 by omega]
    calc crcShifts k (c ^^^ b.setWidth 16) (n + 1)
        = crcBit k (crcBits k c b n ^^^ b.setWidth 16 >>> n) (b.getLsbD n ^^ b.getLsbD n) := by
          rw [crcShifts, ih (by omega), Bool.xor_self]
      _ = crcBit k (crcBits k c b n) (b.getLsbD n) ^^^ crcBit k (b.setWidth 16 >>> n) (b.getLsbD n) := crcBit_xor ..
      _ = crcBits k c b (n + 1) ^^^ b.setWidth 16 >>> (n + 1) := by
          rw [crcBit_of_agree hbit, ← BitVec.shiftRight_add, crcBits]

theorem crcByte_eq_folded (k c : Word) (b : Byte) : crcByte k c b = crcByteFolded k c b := by
  have hused : b.setWidth 16 >>> 8 = 0#16 := by
    ext i hi; simp [BitVec.getLsbD_of_ge]
  rw [crcByteFolded, crcShifts_fold k c b le_rfl, hused, BitVec.xor_zero, crcByte]

theorem crcByte_zero_left (k : Word) (b : Byte) : crcByte k 0 b = crcShifts k (b.setWidth 16) 8 :=
  (crcByte_eq_folded k 0 b).trans (congrArg (crcShifts k · 8) BitVec.zero_xor)

theorem crcByte_zero_zero (k : Word) : crcByte k 0 0 = 0 :=
  (crcByte_zero_left k 0).trans (crcShifts_of_low_zero (by simp))

theorem crcByte_eq_xor_zero (k c : Word) (b : Byte) : crcByte k c b = crcByte k (c ^^^ b.setWidth 16) 0 := by
  simp [crcByte_eq_folded, crcByteFolded]

/-! ### The table form (R78) -/

/-- A register is its high byte and its low byte. -/
theorem word_eq_high_xor_low (c : Word) : c = c >>> 8 <<< 8 ^^^ (c.setWidth 8).setWidth 16 := by
  ext i hi
  by_cases h : i < 8
  · simp [h, hi]
  · simp [h, hi, Nat.add_sub_cancel' (not_lt.mp h), BitVec.getLsbD_eq_getElem]

/-- The high byte only moves down; the low byte and the data byte enter together. -/
theorem crcByte_eq_table (k c : Word) (b : Byte) : crcByte k c b = crcByteTable k c b := by
  have hsplit : c ^^^ b.setWidth 16 = c >>> 8 <<< 8 ^^^ (c.setWidth 8 ^^^ b).setWidth 16 := by
    rw [BitVec.setWidth_xor, ← BitVec.xor_assoc, ← word_eq_high_xor_low]
  have hhigh : crcShifts k (c >>> 8 <<< 8) 8 = c >>> 8 := by
    rw [crcShifts_of_low_zero fun i hi => by rw [BitVec.getLsbD_shiftLeft]; simp [hi]]
    ext i hi
    simpa using BitVec.lt_of_getLsbD
  calc crcByte k c b = crcShifts k (c >>> 8 <<< 8 ^^^ (c.setWidth 8 ^^^ b).setWidth 16) 8 := by
        rw [crcByte_eq_folded, crcByteFolded, hsplit]
    _ = c >>> 8 ^^^ crcShifts k ((c.setWidth 8 ^^^ b).setWidth 16) 8 := by rw [crcShifts_xor, hhigh]
    _ = crcByteTable k c b := by rw [← crcByte_zero_left]; rfl

/-! ### Byte sequences (R76) -/

theorem crcFrom_append (k c : Word) (xs ys : List Byte) :
    crcFrom k c (xs ++ ys) = crcFrom k (crcFrom k c xs) ys := List.foldl_append

theorem crcFrom_xor (k c c' : Word) {xs ys : List Byte} (h : xs.length = ys.length) :
    crcFrom k (c ^^^ c') (List.zipWith (· ^^^ ·) xs ys) = crcFrom k c xs ^^^ crcFrom k c' ys := by
  induction xs generalizing c c' ys with
  | nil => cases ys with
    | nil => rfl
    | cons y ys => cases h
  | cons x xs ih => cases ys with
    | nil => cases h
    | cons y ys =>
      have hlen : xs.length = ys.length := Nat.succ.inj h
      exact (congrArg (crcFrom k · (List.zipWith (· ^^^ ·) xs ys)) (crcByte_xor k c c' x y)).trans (ih _ _ hlen)

/-! ### The obligations on the forms of `crc_byte` -/

/-- Settles O42: the eight steps are the definition, the folded form is `crcByte_eq_folded`, and the corner cases follow
from the table form, in which a low byte equal to the data byte leaves the high byte alone. -/
theorem crcByteIsEightBitSteps : Obligations.CrcByteIsEightBitSteps := by
  refine ⟨fun k c d => ⟨rfl, crcBit_getLsbD_15 k c d⟩, fun k c b => ⟨rfl, crcByte_eq_folded k c b⟩,
    crcByte_eq_xor_zero, fun k => ⟨?_, ?_, crcByte_zero_zero k, crcBit_of_agree rfl⟩, ?_, ?_, ?_, ?_⟩
  · exact (crcByte_eq_table k _ _).trans (congrArg (0x00FF ^^^ ·) (crcByte_zero_zero k))
  · exact (crcByte_eq_table k _ _).trans (congrArg (0x00FF ^^^ ·) (crcByte_zero_zero k))
  all_goals decide

/-- Settles O43: `crcByte_eq_table`, and the five entries by computation. -/
theorem crcTableFormAgrees : Obligations.CrcTableFormAgrees := by
  refine ⟨fun k c b => ⟨crcByte_eq_table k c b, crcByte_eq_table k c b⟩, ?_, ?_, ?_, ?_, ?_⟩
  all_goals decide

/-- Settles O44: linearity passes from the bit step to the byte and on to the sequence. -/
theorem crcIsLinear : Obligations.CrcIsLinear :=
  ⟨crcByte_xor, fun k c c' _ _ h => crcFrom_xor k c c' h⟩

end Sys2Proof.Machine
end

section
/-! PROOFS. With bit 15 of `CRC_K` set a bit step loses no information, so an error confined to two adjacent bytes
reaches the checksum (spec/40_crc.md R82, R83). -/

namespace Sys2Proof.Machine

/-! ### One bit: the register before a step (R83) -/

section
variable {k : Word} (hk : k.getLsbD 15 = true)
include hk

/-- A step that leaves bit 15 clear fed nothing back, so it only halved the register. -/
theorem toNat_eq_of_crcBit_lt {c : Word} (h : (crcBit k c false).toNat < 2 ^ 15) :
    c.toNat = (crcBit k c false).toNat * 2 := by
  have hclear : (crcBit k c false).getLsbD 15 = false := Nat.testBit_lt_two_pow h
  have hbit : c.getLsbD 0 = false := by rwa [crcBit_getLsbD_15, hk, Bool.and_true, Bool.xor_false] at hclear
  have heven : c.toNat % 2 = 0 := by simpa [BitVec.getLsbD, Nat.testBit_zero] using hbit
  rw [crcBit_of_agree hbit, BitVec.toNat_ushiftRight, Nat.shiftRight_eq_div_pow]
  omega

theorem toNat_eq_of_crcShifts_lt {c : Word} {n : Nat} (hn : n ≤ 16) (h : (crcShifts k c n).toNat < 2 ^ (16 - n)) :
    c.toNat = (crcShifts k c n).toNat * 2 ^ n := by
  induction n with
  | zero => simp [crcShifts]
  | succ n ih =>
    have hpow : 2 ^ (16 - n) = 2 ^ (16 - (n + 1)) * 2 := by rw [← Nat.pow_succ]; congr 1; omega
    have hhalf : 2 ^ (16 - (n + 1)) ≤ 2 ^ 15 := Nat.pow_le_pow_right (by decide) (by omega)
    have hstep : (crcShifts k c n).toNat = (crcShifts k c (n + 1)).toNat * 2 :=
      toNat_eq_of_crcBit_lt hk (h.trans_le hhalf)
    calc c.toNat = (crcShifts k c n).toNat * 2 ^ n := ih (by omega) (by omega)
      _ = (crcShifts k c (n + 1)).toNat * 2 ^ (n + 1) := by rw [hstep, Nat.pow_succ']; ac_rfl

theorem eq_zero_of_crcShifts_eq_zero {c : Word} {n : Nat} (hn : n ≤ 16) (h : crcShifts k c n = 0) : c = 0 := by
  have hc := toNat_eq_of_crcShifts_lt hk hn (by rw [h]; exact Nat.two_pow_pos _)
  exact BitVec.eq_of_toNat_eq (by simpa [h] using hc)

theorem crcBit_left_injective {c c' : Word} {d : Bool} (h : crcBit k c d = crcBit k c' d) : c = c' := by
  have hstep : crcShifts k (c ^^^ c') 1 = 0 := by
    calc crcShifts k (c ^^^ c') 1 = crcBit k (c ^^^ c') (d ^^ d) := by rw [Bool.xor_self]; rfl
      _ = 0 := by rw [crcBit_xor, h]; exact BitVec.xor_self
  exact BitVec.xor_eq_zero_iff.mp (eq_zero_of_crcShifts_eq_zero hk (by decide) hstep)

/-! ### Bytes and byte sequences (R82) -/

theorem crcBits_left_injective {c c' : Word} {b : Byte} {n : Nat} (h : crcBits k c b n = crcBits k c' b n) :
    c = c' := by
  induction n with
  | zero => exact h
  | succ n ih => exact ih (crcBit_left_injective hk h)

theorem crcFrom_left_injective {c c' : Word} {xs : List Byte} (h : crcFrom k c xs = crcFrom k c' xs) : c = c' := by
  induction xs generalizing c c' with
  | nil => exact h
  | cons x xs ih => exact crcBits_left_injective hk (ih h)

theorem eq_setWidth_of_crcByte_eq_zero {c : Word} {b : Byte} (h : crcByte k c b = 0) : c = b.setWidth 16 := by
  rw [crcByte_eq_folded] at h
  exact BitVec.xor_eq_zero_iff.mp (eq_zero_of_crcShifts_eq_zero hk (by decide) h)

/-- A table entry but `T[0]` has a bit set in its high byte: a zero high byte means that nothing was fed back, so the
eight shifts dropped all the bits of the byte. -/
theorem eq_zero_of_crcByte_eq_setWidth {x y : Byte} (h : crcByte k 0 x = y.setWidth 16) : x = 0 ∧ y = 0 := by
  rw [crcByte_zero_left] at h
  have hext (z : Byte) : (z.setWidth 16).toNat = z.toNat := BitVec.toNat_setWidth_of_le (by decide)
  have hy : (crcShifts k (x.setWidth 16) 8).toNat = y.toNat := by rw [h, hext]
  have hshift : x.toNat = y.toNat * 2 ^ 8 := by
    rw [← hext, ← hy]; exact toNat_eq_of_crcShifts_lt hk (by decide) (hy.trans_lt y.isLt)
  have hlt : x.toNat < 2 ^ 8 := x.isLt
  exact ⟨BitVec.eq_of_toNat_eq (show x.toNat = 0 by omega), BitVec.eq_of_toNat_eq (show y.toNat = 0 by omega)⟩

/-- From one register, two byte pairs with one checksum are the same pair: by linearity their XOR leads from 0 to 0. -/
theorem crcFrom_pair_injective {c : Word} {a b a' b' : Byte} (h : crcFrom k c [a, b] = crcFrom k c [a', b']) :
    a = a' ∧ b = b' := by
  have hdiff : crcByte k (crcByte k 0 (a ^^^ a')) (b ^^^ b') = 0 := by
    calc crcByte k (crcByte k 0 (a ^^^ a')) (b ^^^ b')
        = crcFrom k (c ^^^ c) (List.zipWith (· ^^^ ·) [a, b] [a', b']) := by rw [BitVec.xor_self]; rfl
      _ = crcFrom k c [a, b] ^^^ crcFrom k c [a', b'] := crcFrom_xor k c c rfl
      _ = 0 := by rw [h]; exact BitVec.xor_self
  obtain ⟨ha, hb⟩ := eq_zero_of_crcByte_eq_setWidth hk (eq_setWidth_of_crcByte_eq_zero hk hdiff)
  exact ⟨BitVec.xor_eq_zero_iff.mp ha, BitVec.xor_eq_zero_iff.mp hb⟩

end

/-! ### The obligations -/

/-- With bit 15 of `k` clear, the step from 1 feeds `k` back and the step from `2 k` shifts to it. -/
theorem crcBit_collision {k : Word} (hk : k.getLsbD 15 = false) : crcBit k 1 false = crcBit k (k <<< 1) false := by
  have hback : k <<< 1 >>> 1 = k := by
    ext i hi
    rcases Nat.lt_or_ge (i + 1) 16 with h | h
    · simp [Nat.add_comm 1 i, h]
    · obtain rfl : i = 15 := by omega
      simpa using hk.symm
  calc crcBit k 1 false = k := BitVec.zero_xor
    _ = crcBit k (k <<< 1) false := by rw [crcBit_of_agree (by simp), hback]

/-- Settles O45: a legal constant by `crcBit_left_injective`, any other by the collision of 1 and `k <<< 1`. -/
theorem crcStepIsOneToOneExactlyForLegalK : Obligations.CrcStepIsOneToOneExactlyForLegalK := by
  refine ⟨fun k => ⟨fun hinj => ?_, fun hk _ _ _ => crcBit_left_injective hk⟩, ?_⟩
  · by_contra hk
    have heq : 1 = k <<< 1 := hinj 1 (k <<< 1) false (crcBit_collision (Bool.eq_false_of_not_eq_true hk))
    have hbit := congrArg (BitVec.getLsbD · 0) heq
    simp at hbit
  · rintro k (rfl | rfl | rfl) <;> decide

/-- Settles O46: the bytes after the pair take back to its register, the bytes before give both pairs one start. -/
theorem adjacentByteErrorsChangeTheChecksum : Obligations.AdjacentByteErrorsChangeTheChecksum := by
  intro k xs ys a b a' b' hk h
  simp only [crcSeq, crcFrom_append] at h
  exact crcFrom_pair_injective hk (crcFrom_left_injective hk h)

end Sys2Proof.Machine
end

section
/-! PROOFS. The length byte and the body bytes accumulate in `CRC`, `IDX` and `WBUF` (spec/40_crc.md R77): induction on
the body, its last byte last. -/

namespace Sys2Proof.Machine

/-! ### One byte in phase `LEN` or `BODY` (R91 to R94) -/

theorem deliverByte_of_len {s : State} (hp : s.phase = .len) (b : Byte) :
    deliverByte b s = .next (if b = 0 then s.takeLenZero else s.takeLen b) := by
  simp only [deliverByte, hp]
  split_ifs with hb
  · exact whenSelected_of _ hp
  · exact whenSelected_of _ ⟨hp, hb⟩

theorem deliverByte_of_body {s : State} (hp : s.phase = .body) (hlt : s.idx.toNat < s.len.toNat) (b : Byte) :
    deliverByte b s = .next (s.takeBody b (if s.idx.toNat + 1 = s.len.toNat then .crcHi else .body)) := by
  simp only [deliverByte, hp]
  by_cases hlast : s.idx.toNat + 1 = s.len.toNat
  · rw [if_neg (by omega), if_pos hlast]; exact whenSelected_of _ ⟨hp, hlast⟩
  · rw [if_pos (by omega), if_neg hlast]; exact whenSelected_of _ ⟨hp, by omega⟩

theorem toNat_idx_succ {s : State} (hlt : s.idx.toNat < s.len.toNat) : (s.idx + 1).toNat = s.idx.toNat + 1 := by
  have hlen : s.len.toNat < 2 ^ 8 := s.len.isLt
  rw [BitVec.toNat_add]
  exact Nat.mod_eq_of_lt (show s.idx.toNat + 1 < 2 ^ 8 by omega)

/-! ### What has arrived of a frame -/

/-- After the length byte `lenb` and the body bytes `body`, from state `s` in phase `LEN`. -/
structure BodyReceived (s t : State) (lenb : Byte) (body : List Byte) : Prop where
  crcK : t.crcK = s.crcK
  crc : t.crc = crcSeq s.crcK (lenb :: body)
  len : t.len = lenb
  idx : t.idx.toNat = body.length
  wbuf : ∀ i < body.length, t.wbuf.read i = body[i]?
  wbuf_kept : ∀ i, body.length ≤ i → t.wbuf.read i = s.wbuf.read i
  phase : t.phase = if body.length = lenb.toNat then .crcHi else .body

theorem bodyReceived_of_lenByte {s : State} (h : s.Inv) (hp : s.phase = .len) (lenb : Byte) :
    BodyReceived s (if lenb = 0 then s.takeLenZero else s.takeLen lenb) lenb [] := by
  obtain ⟨⟨-, -, hlen, -, -⟩, -, -⟩ := h
  obtain ⟨-, hidx, hcrc, -⟩ := hlen hp
  have hseq : crcByte s.crcK s.crc lenb = crcSeq s.crcK [lenb] := by rw [hcrc]; rfl
  by_cases hb : lenb = 0
  · subst hb
    exact ⟨rfl, hseq, rfl, by simp [hidx], by simp, fun _ _ => rfl, rfl⟩
  · have hpos : 0 ≠ lenb.toNat := fun h0 => hb (BitVec.eq_of_toNat_eq h0.symm)
    rw [if_neg hb]
    exact ⟨rfl, hseq, rfl, by simp [hidx], by simp, fun _ _ => rfl, (if_neg hpos).symm⟩

theorem BodyReceived.snoc {s t : State} {lenb : Byte} {body : List Byte} (h : BodyReceived s t lenb body) (b : Byte)
    (hlt : t.idx.toNat < t.len.toNat) :
    BodyReceived s (t.takeBody b (if t.idx.toNat + 1 = t.len.toNat then .crcHi else .body)) lenb (body ++ [b]) where
  crcK := h.crcK
  crc := by
    rw [State.takeBody_crc, h.crcK, h.crc, ← List.cons_append, crcSeq, crcSeq, crcFrom_append]; rfl
  len := h.len
  idx := by rw [State.takeBody_idx, toNat_idx_succ hlt, h.idx, List.length_append, List.length_singleton]
  wbuf := by
    intro i hi
    have hbound : t.idx.toNat < 255 := by have := t.len.isLt; omega
    rw [State.takeBody_wbuf]
    rcases Nat.lt_or_eq_of_le (Nat.le_of_lt_succ (by simpa using hi)) with hold | hnew
    · rw [Memory.read_write_of_ne _ _ (by rw [h.idx]; omega), h.wbuf i hold, List.getElem?_append_left hold]
    · rw [hnew, List.getElem?_concat_length, ← h.idx, Memory.read_write_same _ _ hbound]
  wbuf_kept := by
    intro i hi
    rw [List.length_append, List.length_singleton] at hi
    rw [State.takeBody_wbuf, Memory.read_write_of_ne _ _ (by rw [h.idx]; omega), h.wbuf_kept i (by omega)]
  phase := by rw [State.takeBody_phase, h.idx, h.len, List.length_append, List.length_singleton]

theorem deliver_bodyReceived {s : State} (h : s.Inv) (hp : s.phase = .len) {lenb : Byte} {body : List Byte}
    (hle : body.length ≤ lenb.toNat) : ∃ t, deliver (lenb :: body) s = .next t ∧ BodyReceived s t lenb body := by
  induction body using List.reverseRecOn with
  | nil => exact ⟨_, by rw [deliver_cons, deliverByte_of_len hp]; rfl, bodyReceived_of_lenByte h hp lenb⟩
  | append_singleton body b ih =>
    rw [List.length_append, List.length_singleton] at hle
    obtain ⟨t, ht, hbody⟩ := ih (by omega)
    have hphase : t.phase = .body := hbody.phase.trans (if_neg (by omega))
    have hlt : t.idx.toNat < t.len.toNat := by rw [hbody.idx, hbody.len]; omega
    refine ⟨_, ?_, hbody.snoc b hlt⟩
    rw [← List.cons_append, deliver_append, ht, andThen_next, deliver_cons, deliverByte_of_body hphase hlt]; rfl

/-- Settles O11: the events are the delivered bytes, and `BodyReceived` says what they leave. -/
theorem bodyChecksumAndBytesAccumulate : Obligations.BodyChecksumAndBytesAccumulate := by
  refine ⟨fun s lenb body hinv hp hle => ?_, by decide, by decide⟩
  obtain ⟨t, ht, h⟩ := deliver_bodyReceived hinv hp hle
  exact ⟨t, (deliver_eq_runEvents hinv _).symm.trans ht, h.crc, h.crc, h.len, h.idx, h.wbuf, h.wbuf_kept, h.phase⟩

end Sys2Proof.Machine
end

section
/-! PROOFS. The synchronizer (spec/41_sync.md): which row each event of phase `HUNT` runs and what it leaves (R85 to
R88), `IDLE` (R89), and the position at which the marker is found (R90), by induction on the stream. -/

namespace Sys2Proof.Machine

/-! ### One event in phase `HUNT` (R85 to R88) -/

/-- An event runs the row that encodes to it and whose conditions the state meets. -/
theorem runEvent_of_selected {e : Event} {i : Instr} {s : State} (he : encode i = eventCode e)
    (hw : i.wellFormed = true) (hs : i.selected s.select = true) : runEvent e s = exec i s :=
  runCode_of_decode (he ▸ decodeInvertsEncode i s.select hw hs)

theorem exec_huntA5 {s : State} (hp : s.phase = .hunt) (hc : s.syncCnt ≠ 3) : exec .huntA5 s = .next s.countSync :=
  whenSelected_of _ ⟨hp, hc⟩

theorem exec_huntLock {s : State} (hp : s.phase = .hunt) (hc : s.syncCnt = 3) : exec .huntLock s = .next s.lock :=
  whenSelected_of _ ⟨hp, hc⟩

theorem exec_huntSkip {s : State} (hp : s.phase = .hunt) {b : Byte} (hb : b ≠ Config.syncByte) :
    exec (.huntSkip b) s = .next s.skipByte := whenSelected_of _ ⟨hp, hb⟩

theorem exec_abortHunt {s : State} (hp : s.phase = .hunt) : exec .abortHunt s = .next s.abort :=
  (whenSelected_of _ hp).trans (congrArg Host.Outcome.next (abort_of_hunt hp).symm)

theorem runEvent_syncByte {s : State} (hp : s.phase = .hunt) (hc : s.syncCnt ≠ 3) :
    runEvent (.byte Config.syncByte) s = exec .huntA5 s :=
  runEvent_of_selected rfl rfl (selected_huntA5.mpr ⟨hp, hc⟩)

theorem runEvent_fourth_syncByte {s : State} (hp : s.phase = .hunt) (hc : s.syncCnt = 3) :
    runEvent (.byte Config.syncByte) s = exec .huntLock s :=
  runEvent_of_selected rfl rfl (selected_huntLock.mpr ⟨hp, hc⟩)

theorem runEvent_other_byte {s : State} (hp : s.phase = .hunt) {b : Byte} (hb : b ≠ Config.syncByte) :
    runEvent (.byte b) s = exec (.huntSkip b) s :=
  runEvent_of_selected rfl (wellFormed_huntSkip.mpr hb) (selected_huntSkip.mpr hp)

/-- After the marker every byte is a length byte, the sync byte too (R86). -/
theorem runEvent_lengthByte {s : State} (hp : s.phase = .len) (b : Byte) :
    runEvent (.byte b) s = exec (if b = 0 then .lenZero else .lenByte b) s := by
  by_cases hb : b = 0
  · subst hb; exact runEvent_of_selected (i := .lenZero) rfl rfl (selected_lenZero.mpr hp)
  · rw [if_neg hb]; exact runEvent_of_selected rfl (wellFormed_lenByte.mpr hb) (selected_lenByte.mpr hp)

theorem syncCnt_succ_toNat {s : State} (hc : s.syncCnt ≠ 3) : (s.syncCnt + 1).toNat = s.syncCnt.toNat + 1 := by
  generalize s.syncCnt = c at hc ⊢
  revert c
  decide

/-- Settles O1: with fewer than three sync bytes counted, the row of R69 is `HUNT.A5`. -/
theorem syncByteIsCounted : Obligations.SyncByteIsCounted := by
  intro s hp hlt
  have hc : s.syncCnt ≠ 3 := fun h3 => by simp [h3] at hlt
  exact ⟨runEvent_syncByte hp hc, exec_huntA5 hp hc, syncCnt_succ_toNat hc⟩

/-- Settles O2: the fourth sync byte leaves phase `LEN`, where the next byte is the length byte. -/
theorem fourthSyncByteOpensFrame : Obligations.FourthSyncByteOpensFrame := by
  intro s hp hc
  exact ⟨runEvent_fourth_syncByte hp hc, s.lock, exec_huntLock hp hc, rfl, runEvent_lengthByte rfl⟩

/-- Settles O3: the row of R69 is `HUNT.SKIP`, whatever has been counted. -/
theorem nonSyncByteIsSkipped : Obligations.NonSyncByteIsSkipped :=
  fun _ _ hp hb => ⟨runEvent_other_byte hp hb, exec_huntSkip hp hb⟩

theorem skipOnAbort_eq (skip : Bool) (c : BitVec 2) : skipOnAbort skip c = (skip || decide (c ≠ 0)) := by
  revert skip c
  decide

/-- Settles O4: event and command are the one abort, which in `HUNT` throws away the count. -/
theorem abortInHuntDropsPartialMarker : Obligations.AbortInHuntDropsPartialMarker := by
  intro s hp
  have hexec : exec .abortHunt s = .next s.abort := exec_abortHunt hp
  refine ⟨(runEvent_abort s).trans hexec.symm, hexec.symm, ?_, fun hc => ?_⟩
  · rw [hexec, abort_of_hunt hp, State.abortHunt, skipOnAbort_eq]; rfl
  · rw [hexec, abort_of_nothing_in_progress hp hc]; rfl

/-! ### `IDLE` (R89) -/

theorem runEvents_idles (s : State) (n : Nat) : runEvents (List.replicate (n + 1) .idle) s = .next s.quiet := by
  induction n generalizing s with
  | zero => exact congrArg (andThen · _) (runEvent_idle s)
  | succ n ih =>
    calc runEvents (List.replicate (n + 2) .idle) s
      _ = andThen (runEvent .idle s) (runEvents (List.replicate (n + 1) .idle)) := rfl
      _ = .next s.quiet.quiet := by rw [runEvent_idle, andThen_next, ih]
      _ = .next s.quiet := rfl

/-- Settles O5: one `Idle` clears `Out`, and each further one finds it cleared. -/
theorem idleEventsChangeNothing : Obligations.IdleEventsChangeNothing := fun s => ⟨rfl, runEvents_idles s⟩

/-! ### Streams in phase `HUNT` (R90) -/

/-- In every state the byte events and the byte port go on to the same state. -/
theorem runEvents_bytes_next_iff {bs : List Byte} {s t : State} :
    runEvents (bytesAsEvents bs) s = .next t ↔ deliver bs s = .next t := by
  induction bs generalizing s with
  | nil => exact Iff.rfl
  | cons b bs ih =>
    calc runEvents (bytesAsEvents (b :: bs)) s = .next t
      _ ↔ ∃ u, runEvent (.byte b) s = .next u ∧ runEvents (bytesAsEvents bs) u = .next t := andThen_next_iff
      _ ↔ ∃ u, deliverByte b s = .next u ∧ deliver bs u = .next t := by simp only [runEvent_byte_next_iff, ih]
      _ ↔ deliver (b :: bs) s = .next t := andThen_next_iff.symm

theorem deliver_cons_of_runEvent {b : Byte} {s u : State} (h : runEvent (.byte b) s = .next u) (bs : List Byte) :
    deliver (b :: bs) s = deliver bs u := by
  rw [deliver_cons, runEvent_byte_next_iff.mp h, andThen_next]

theorem deliver_syncByte {s : State} (hp : s.phase = .hunt) (hc : s.syncCnt ≠ 3) (bs : List Byte) :
    deliver (Config.syncByte :: bs) s = deliver bs s.countSync :=
  deliver_cons_of_runEvent ((runEvent_syncByte hp hc).trans (exec_huntA5 hp hc)) bs

theorem deliver_fourth_syncByte {s : State} (hp : s.phase = .hunt) (hc : s.syncCnt = 3) (bs : List Byte) :
    deliver (Config.syncByte :: bs) s = deliver bs s.lock :=
  deliver_cons_of_runEvent ((runEvent_fourth_syncByte hp hc).trans (exec_huntLock hp hc)) bs

theorem deliver_other_byte {s : State} (hp : s.phase = .hunt) {b : Byte} (hb : b ≠ Config.syncByte) (bs : List Byte) :
    deliver (b :: bs) s = deliver bs s.skipByte :=
  deliver_cons_of_runEvent ((runEvent_other_byte hp hb).trans (exec_huntSkip hp hb)) bs

/-- With nothing counted, the four sync bytes open a frame. -/
theorem deliver_marker {s : State} (hp : s.phase = .hunt) (hc : s.syncCnt = 0) : deliver marker s = .next s.lock := by
  rw [marker, deliver_syncByte hp (by simp [hc]), deliver_syncByte (s := s.countSync) hp (by simp [hc]),
    deliver_syncByte (s := s.countSync.countSync) hp (by simp [hc]),
    deliver_fourth_syncByte (s := s.countSync.countSync.countSync) hp (by simp [hc])]
  rfl

/-- The sync bytes that `SYNC_CNT` stands for: the part of a marker that has come last (R14). -/
def State.partialMarker (s : State) : List Byte := List.replicate s.syncCnt.toNat Config.syncByte

theorem partialMarker_of_none {s : State} (hc : s.syncCnt = 0) : s.partialMarker = [] := by
  simp [State.partialMarker, hc]

theorem partialMarker_of_three {s : State} (hc : s.syncCnt = 3) :
    s.partialMarker = [Config.syncByte, Config.syncByte, Config.syncByte] := by
  simp [State.partialMarker, hc, List.replicate]

theorem partialMarker_countSync {s : State} (hc : s.syncCnt ≠ 3) :
    s.countSync.partialMarker = s.partialMarker ++ [Config.syncByte] := by
  rw [State.partialMarker, State.countSync_syncCnt, syncCnt_succ_toNat hc, List.replicate_succ']; rfl

/-- What a stream `bs` without a complete marker leaves, from state `s` in phase `HUNT`: `SYNC_CNT` counts sync bytes
at the end of all that came. -/
structure KeptHunting (s t : State) (bs : List Byte) : Prop where
  state : t = { s with syncCnt := t.syncCnt, skip := s.skip || bs.any (· != Config.syncByte), out := t.out }
  counted : t.partialMarker <:+ s.partialMarker ++ bs

theorem keptHunting_nil (s : State) : KeptHunting s s [] where
  state := by simp
  counted := by simp

theorem KeptHunting.syncByte {s t : State} {bs : List Byte} (hc : s.syncCnt ≠ 3) (h : KeptHunting s.countSync t bs) :
    KeptHunting s t (Config.syncByte :: bs) where
  state := h.state.trans (by simp [State.countSync])
  counted := by simpa [partialMarker_countSync hc] using h.counted

theorem KeptHunting.other_byte {s t : State} {b : Byte} {bs : List Byte} (hb : b ≠ Config.syncByte)
    (h : KeptHunting s.skipByte t bs) : KeptHunting s t (b :: bs) where
  state := h.state.trans (by simp [State.skipByte, hb])
  counted := by
    have hbs : t.partialMarker <:+ bs := by simpa [partialMarker_of_none (s := s.skipByte) rfl] using h.counted
    exact hbs.trans ⟨s.partialMarker ++ [b], by simp⟩

theorem deliver_keptHunting {bs : List Byte} {s : State} (hp : s.phase = .hunt)
    (hno : ¬ marker <:+: s.partialMarker ++ bs) : ∃ t, deliver bs s = .next t ∧ KeptHunting s t bs := by
  induction bs generalizing s with
  | nil => exact ⟨s, rfl, keptHunting_nil s⟩
  | cons b bs ih =>
    by_cases hb : b = Config.syncByte
    · subst hb
      have hc : s.syncCnt ≠ 3 := fun h3 => hno ⟨[], bs, by rw [partialMarker_of_three h3]; rfl⟩
      obtain ⟨t, ht, h⟩ := ih (s := s.countSync) hp (by simpa [partialMarker_countSync hc] using hno)
      exact ⟨t, (deliver_syncByte hp hc bs).trans ht, h.syncByte hc⟩
    · have hrest : ¬ marker <:+: s.skipByte.partialMarker ++ bs := fun hin =>
        hno (hin.trans ⟨s.partialMarker ++ [b], [], by simp [partialMarker_of_none (s := s.skipByte) rfl]⟩)
      obtain ⟨t, ht, h⟩ := ih (s := s.skipByte) hp hrest
      exact ⟨t, (deliver_other_byte hp hb bs).trans ht, h.other_byte hb⟩

section
variable {p : List Byte} (hno : ¬ marker <:+: p ++ [Config.syncByte, Config.syncByte, Config.syncByte])
include hno

/-- A sync byte at the end of `p` would make the marker complete one byte earlier. -/
theorem not_syncByte_suffix : ¬ [Config.syncByte] <:+ p := by
  rintro ⟨q, rfl⟩
  exact hno ⟨q, [], by simp [marker]⟩

theorem syncCnt_eq_zero_of_suffix {t : State} (h : t.partialMarker <:+ p) : t.syncCnt = 0 := by
  by_contra hc
  have hone : [Config.syncByte] <:+ t.partialMarker := by
    obtain ⟨n, hn⟩ := Nat.exists_eq_succ_of_ne_zero fun h0 => hc (BitVec.eq_of_toNat_eq h0)
    exact ⟨List.replicate n Config.syncByte, by rw [State.partialMarker, hn, List.replicate_succ']⟩
  exact not_syncByte_suffix hno (hone.trans h)

theorem any_ne_syncByte : p.any (· != Config.syncByte) = !p.isEmpty := by
  rcases List.eq_nil_or_concat' p with rfl | ⟨q, b, rfl⟩
  · rfl
  · have hb : b ≠ Config.syncByte := by
      rintro rfl
      exact not_syncByte_suffix hno ⟨q, rfl⟩
    simp [bne_iff_ne.mpr hb]

end

/-- Settles O6: a stream without a marker keeps the block hunting; before the first marker nothing is left counted, so
its four bytes are `HUNT.A5` three times and `HUNT.LOCK`. -/
theorem huntLocksAtFirstMarker : Obligations.HuntLocksAtFirstMarker := by
  intro s hp hc
  have hnone : s.partialMarker = [] := partialMarker_of_none hc
  refine ⟨fun bs hno => ?_, fun p hno => runEvents_bytes_next_iff.mpr ?_⟩
  · obtain ⟨t, ht, h⟩ := deliver_keptHunting hp (by rwa [hnone])
    exact ⟨t, runEvents_bytes_next_iff.mpr ht, h.state⟩
  · have hnop : ¬ marker <:+: p := fun hin => hno (hin.trans ⟨[], _, rfl⟩)
    obtain ⟨t, ht, h⟩ := deliver_keptHunting hp (by rwa [hnone])
    have hct : t.syncCnt = 0 := syncCnt_eq_zero_of_suffix hno (by simpa [hnone] using h.counted)
    have hpt : t.phase = .hunt := (congrArg State.phase h.state).trans hp
    calc deliver (p ++ marker) s
      _ = deliver marker t := by rw [deliver_append, ht, andThen_next]
      _ = .next t.lock := deliver_marker hpt hct
      _ = .next { s.lock with skip := s.skip || p.any (· != Config.syncByte) } :=
        congrArg (fun u => Host.Outcome.next (State.lock u)) h.state
      _ = .next { s.lock with skip := s.skip || !p.isEmpty } := by rw [any_ne_syncByte hno]

end Sys2Proof.Machine
end

section
/-! PROOFS. One event of the length, body and checksum parser (spec/42_parser.md R91 to R98): the row that it runs, and
the state that the row leaves. -/

namespace Sys2Proof.Machine

/-! ### The length byte (R91, R92) -/

theorem exec_lenByte {s : State} (hp : s.phase = .len) {b : Byte} (hb : b ≠ 0) :
    exec (.lenByte b) s = .next (s.takeLen b) := whenSelected_of _ ⟨hp, hb⟩

theorem exec_lenZero {s : State} (hp : s.phase = .len) : exec .lenZero s = .next s.takeLenZero := whenSelected_of _ hp

/-- After the marker the checksum and the index are as R86 left them (R37 item 3). -/
theorem State.Inv.crc_idx_of_len {s : State} (h : s.Inv) (hp : s.phase = .len) : s.crc = 0xFFFF ∧ s.idx = 0 := by
  obtain ⟨⟨-, -, hlen, -, -⟩, -, -⟩ := h
  obtain ⟨-, hidx, hcrc, -⟩ := hlen hp
  exact ⟨hcrc, hidx⟩

/-- Settles O7: the row of R69 is `LEN.BYTE`, and R37 item 3 gives the values it starts from. -/
theorem nonzeroLengthByteOpensBody : Obligations.NonzeroLengthByteOpensBody := by
  intro s b hp hb
  have hrow : runEvent (.byte b) s = exec (.lenByte b) s :=
    runEvent_of_selected rfl (wellFormed_lenByte.mpr hb) (selected_lenByte.mpr hp)
  exact ⟨hrow, exec_lenByte hp hb, fun h => h.crc_idx_of_len hp⟩

/-- Settles O8: the row of R69 is `LEN.ZERO`, and its checksum starts from FFFF. -/
theorem zeroLengthByteGoesToChecksum : Obligations.ZeroLengthByteGoesToChecksum := by
  intro s hp
  have hrow : runEvent (.byte 0) s = exec .lenZero s :=
    runEvent_of_selected (i := .lenZero) rfl rfl (selected_lenZero.mpr hp)
  have hseq (h : s.Inv) : crcByte s.crcK s.crc 0x00 = crcSeq s.crcK [0x00] := by rw [(h.crc_idx_of_len hp).1]; rfl
  refine ⟨hrow, exec_lenZero hp, hseq, fun h hk => ?_⟩
  rw [hseq h, hk]
  decide

/-! ### Body bytes (R93, R94) -/

theorem exec_bodyByte {s : State} (hp : s.phase = .body) (hmore : s.idx.toNat + 1 < s.len.toNat) (b : Byte) :
    exec (.bodyByte b) s = .next (s.takeBody b .body) := whenSelected_of _ ⟨hp, hmore⟩

theorem exec_bodyLast {s : State} (hp : s.phase = .body) (hlast : s.idx.toNat + 1 = s.len.toNat) (b : Byte) :
    exec (.bodyLast b) s = .next (s.takeBody b .crcHi) := whenSelected_of _ ⟨hp, hlast⟩

/-- The memory `w` is `m` with element `i` set to `b`; the canonical form stays. -/
def StoredAt (m w : Memory) (i : Nat) (b : Byte) : Prop :=
  w.read i = some b ∧ (∀ j, j ≠ i → w.read j = m.read j) ∧ (m.wf = true → w.wf = true)

theorem storedAt_write (m : Memory) {i : Nat} (b : Byte) (hi : i < 255) : StoredAt m (m.write i b) i b :=
  ⟨m.read_write_same b hi, fun _ hj => m.read_write_of_ne b hj, m.wf_write i b⟩

/-- Settles O9: `IDX + 1 < LEN ≤ 255` keeps the store in the buffer and the index from wrapping. -/
theorem bodyByteIsStoredAtIdx : Obligations.BodyByteIsStoredAtIdx := by
  intro s b hp hmore
  have hlen : s.len.toNat < 256 := s.len.isLt
  obtain ⟨hnew, hold, hwf⟩ := storedAt_write s.wbuf b (i := s.idx.toNat) (by omega)
  refine ⟨runEvent_of_selected rfl rfl (selected_bodyByte.mpr ⟨hp, hmore⟩), s.wbuf.write s.idx.toNat b, ?_, hnew, hold,
    hwf, toNat_idx_succ (by omega), by omega⟩
  rw [exec_bodyByte hp hmore, ← hp]
  rfl

/-- Settles O10: the index that follows the last byte is `LEN` itself. -/
theorem lastBodyByteClosesBody : Obligations.LastBodyByteClosesBody := by
  intro s b hp hlast
  have hlen : s.len.toNat < 256 := s.len.isLt
  have hidx : s.idx + 1 = s.len := BitVec.eq_of_toNat_eq ((toNat_idx_succ (by omega)).trans hlast)
  obtain ⟨hnew, hold, hwf⟩ := storedAt_write s.wbuf b (i := s.idx.toNat) (by omega)
  refine ⟨runEvent_of_selected rfl rfl (selected_bodyLast.mpr ⟨hp, hlast⟩), s.wbuf.write s.idx.toNat b, ?_, hnew, hold,
    hwf⟩
  rw [exec_bodyLast hp hlast, State.takeBody, hidx]
  rfl

/-! ### The CRC field (R95 to R97) -/

theorem exec_crchiByte {s : State} (hp : s.phase = .crcHi) (b : Byte) :
    exec (.crchiByte b) s = .next (s.takeCrcHi b) := whenSelected_of _ hp

theorem exec_crcloByte {s : State} (hp : s.phase = .crcLo) (b : Byte) :
    exec (.crcloByte b) s = .next (s.takeCrcLo b) := whenSelected_of _ hp

theorem runEvent_crcHi {s : State} (hp : s.phase = .crcHi) (b : Byte) :
    runEvent (.byte b) s = exec (.crchiByte b) s := runEvent_of_selected rfl rfl (selected_crchiByte.mpr hp)

theorem runEvent_crcLo {s : State} (hp : s.phase = .crcLo) (b : Byte) :
    runEvent (.byte b) s = exec (.crcloByte b) s := runEvent_of_selected rfl rfl (selected_crcloByte.mpr hp)

/-- Settles O12: the row of R69 is `CRCHI.BYTE`. -/
theorem crcHighByteIsHeld : Obligations.CrcHighByteIsHeld :=
  fun _ b hp => ⟨runEvent_crcHi hp b, exec_crchiByte hp b⟩

theorem wbufByte_of_read {m : Memory} {i : Nat} {c : Byte} (h : m.read i = some c) : wbufByte m i = c := by
  simp [wbufByte, h]

/-- The end of a frame makes every assignment of `EMIT`: the copy ends below element 255, as `IDX` is a byte. -/
theorem recorded_endFrame (s : State) (st : Status) (ok : Bool) (rx : Word) :
    Recorded s (s.endFrame st ok rx) st ok rx where
  overrun := rfl
  resValid := rfl
  status_eq := rfl
  crcOk := rfl
  resSkip := rfl
  skip := rfl
  phase := rfl
  len := rfl
  count := rfl
  cmd_first c hpos hc := (if_pos hpos).trans (wbufByte_of_read hc)
  cmd_none hidx := newResult_cmd_of_idx_zero st ok rx hidx
  crcRx := rfl
  crcCalc := rfl
  copied i hi c hc := by
    have hidx : s.idx.toNat < 256 := s.idx.isLt
    rw [State.endFrame_resBody, read_copyBody_of_lt _ _ hi (by omega), wbufByte_of_read hc]
  kept i hi := read_copyBody_of_le _ _ hi
  out := rfl

theorem keptAtFrameEnd_endFrame (s : State) (st : Status) (ok : Bool) (rx : Word) :
    KeptAtFrameEnd s (s.endFrame st ok rx) :=
  ⟨rfl, rfl, rfl, rfl, rfl, fun _ => rfl, rfl, rfl, rfl, rfl, rfl, rfl⟩

/-- The verdict on a received checksum, clause by clause (R96). -/
theorem verdict_crcCmp (strict : Bool) (rx c : Word) (len : Byte) :
    verdict strict (crcCmp rx c) len
      = if rx ≠ c ∧ strict = true then .badCrc else if len = 0 then .emptyBody else .ok := by
  by_cases h : rx = c <;> simp [verdict, crcCmp, h]

theorem recorded_takeCrcLo (s : State) (b : Byte) :
    Recorded s (s.takeCrcLo b)
      (if s.crcRxHi ++ b ≠ s.crc ∧ s.strict = true then .badCrc else if s.len = 0 then .emptyBody else .ok)
      (decide (s.crcRxHi ++ b = s.crc)) (s.crcRxHi ++ b) :=
  verdict_crcCmp s.strict (s.crcRxHi ++ b) s.crc s.len ▸ recorded_endFrame s _ _ _

/-- Settles O13: the row of R69 is `CRCLO.BYTE`, which ends the frame with the verdict. -/
theorem crcLowByteGivesVerdict : Obligations.CrcLowByteGivesVerdict :=
  fun s b hp => ⟨runEvent_crcLo hp b, s.takeCrcLo b, exec_crcloByte hp b, recorded_takeCrcLo s b, rfl,
    keptAtFrameEnd_endFrame s _ _ _⟩

/-! ### An abort inside a frame (R98, R123) -/

theorem exec_abortFrame {s : State} (hp : s.phase ≠ .hunt) : exec .abortFrame s = .next s.abortFrame :=
  whenSelected_of _ hp

/-- Settles O14: event and command are the one abort, which in a frame ends it as `TRUNCATED`. -/
theorem abortInFrameRecordsTruncated : Obligations.AbortInFrameRecordsTruncated := by
  refine ⟨fun s => (runEvent_abort s).symm, fun s hp => ?_⟩
  exact ⟨runEvent_of_selected rfl rfl (selected_abortFrame.mpr hp), s.abortFrame, exec_abortFrame hp,
    recorded_endFrame s _ _ _, rfl, keptAtFrameEnd_endFrame s _ _ _⟩

end Sys2Proof.Machine
end

section
/-! PROOFS. The phase graph (spec/42_parser.md R99): the phase after each event; and what the parser does with the bytes of
a sequence of events does not depend on the `Idle` events and host writes between them. -/

namespace Sys2Proof.Machine

/-! ### The phase after an event -/

theorem deliverByte_phase {b : Byte} {s t : State} (h : deliverByte b s = .next t) :
    t.phase = phaseAfter s (.byte b) := by
  rcases deliverByte_next h with ⟨hp, hb, hc, rfl⟩ | ⟨hp, hb, hc, rfl⟩ | ⟨hp, hb, rfl⟩ | ⟨hp, hb, rfl⟩ | ⟨hp, hb, rfl⟩
    | ⟨hp, hmore, rfl⟩ | ⟨hp, hlast, rfl⟩ | ⟨hp, rfl⟩ | ⟨hp, rfl⟩
  · simp [phaseAfter, hp, hb, hc]
  · simpa [phaseAfter, hp] using fun _ => hc
  · simp [phaseAfter, hp, hb]
  · simp [phaseAfter, hp, hb]
  · simpa [phaseAfter, hp] using hb
  · simp [phaseAfter, hp, hmore.ne]
  · simp [phaseAfter, hp, hlast]
  · simp [phaseAfter, hp]
  · simp [phaseAfter, hp, State.takeCrcLo]

theorem commands_phase (s : State) (v : Word) : (s.commands v).phase = if v[3] = true then .hunt else s.phase := by
  rw [commands_eq]
  split_ifs
  · exact abort_phase _
  · rfl

theorem runEvent_phase {e : Event} {s t : State} (h : runEvent e s = .next t) : t.phase = phaseAfter s e := by
  cases e with
  | reset => cases (runEvent_reset s).symm.trans h; rfl
  | idle => cases (runEvent_idle s).symm.trans h; rfl
  | byte b => exact deliverByte_phase (runEvent_byte_next_iff.mp h)
  | abort => cases (runEvent_abort s).symm.trans h; exact abort_phase s
  | hostWrite a v =>
    by_cases h0 : a = 0x000
    · subst h0; cases (runEvent_ctrlWrite v s).symm.trans h; rfl
    by_cases h2 : a = 0x002
    · subst h2; cases (runEvent_cmdrWrite v s).symm.trans h; simp [phaseAfter, commands_phase]
    · cases (runEvent_otherWrite h0 h2 v s).symm.trans h; exact (if_neg fun hc => h2 hc.1).symm

/-! ### The registers of the parser -/

/-- The state with only the registers that parsing a byte reads: the others as after reset. -/
def State.parser (s : State) : State :=
  { State.reset with
    phase := s.phase
    syncCnt := s.syncCnt
    len := s.len
    idx := s.idx
    crc := s.crc
    crcRxHi := s.crcRxHi
    wbuf := s.wbuf
    crcK := s.crcK }

/-- An answer with only the parser's registers of its next state. -/
def parserAnswer (o : Answer) : Answer := andThen o fun t => .next t.parser

theorem parserAnswer_whenSelected (c : Prop) [Decidable c] (t : State) :
    parserAnswer (whenSelected c t) = whenSelected c t.parser := by
  by_cases h : c
  · rw [whenSelected_of t h, whenSelected_of _ h]; rfl
  · rw [whenSelected_of_not t h, whenSelected_of_not _ h]; rfl

theorem parserAnswer_whenSelected_congr (c : Prop) [Decidable c] {t u : State} (h : t.parser = u.parser) :
    parserAnswer (whenSelected c t) = parserAnswer (whenSelected c u) := by
  rw [parserAnswer_whenSelected, parserAnswer_whenSelected, h]

/-- A byte's row and its effect on the parser's registers depend on those registers alone. -/
theorem parserAnswer_deliverByte (b : Byte) (s : State) :
    parserAnswer (deliverByte b s.parser) = parserAnswer (deliverByte b s) := by
  have hphase : s.parser.phase = s.phase := rfl
  have hsync : s.parser.syncCnt = s.syncCnt := rfl
  have hidx : s.parser.idx = s.idx := rfl
  have hlen : s.parser.len = s.len := rfl
  simp only [deliverByte, hphase, hsync, hidx, hlen]
  cases s.phase with
  | hunt =>
    dsimp only
    split_ifs <;> exact parserAnswer_whenSelected_congr _ rfl
  | len =>
    dsimp only
    split_ifs <;> exact parserAnswer_whenSelected_congr _ rfl
  | body =>
    dsimp only
    split_ifs <;> exact parserAnswer_whenSelected_congr _ rfl
  | crcHi => exact parserAnswer_whenSelected_congr _ rfl
  | crcLo => exact parserAnswer_whenSelected_congr _ rfl

theorem exists_next_of_parserAnswer {o : Answer} {t : State} (h : parserAnswer o = .next t) :
    ∃ v, o = .next v ∧ v.parser = t := by
  obtain ⟨v, hv, ht⟩ := andThen_next_iff.mp h
  exact ⟨v, hv, Host.Outcome.next.inj ht⟩

theorem deliverByte_sameParser {b : Byte} {s u t : State} (hsu : s.parser = u.parser)
    (h : deliverByte b s = .next t) : ∃ v, deliverByte b u = .next v ∧ v.parser = t.parser := by
  apply exists_next_of_parserAnswer
  rw [← parserAnswer_deliverByte, ← hsu, parserAnswer_deliverByte, h]
  rfl

/-! ### Bytes among other events -/

/-- Between two bytes, an event that does not abort leaves the parser's registers alone (R89, R118 to R125). -/
theorem runEvent_keeps_parser {e : Event} (hno : noAbort e = true) (hbyte : ∀ b, e ≠ .byte b) (s : State) :
    ∃ t, runEvent e s = .next t ∧ t.parser = s.parser := by
  cases e with
  | reset => cases hno
  | idle => exact ⟨_, runEvent_idle s, rfl⟩
  | byte b => exact absurd rfl (hbyte b)
  | abort => cases hno
  | hostWrite a v =>
    by_cases h0 : a = 0x000
    · subst h0; exact ⟨_, runEvent_ctrlWrite v s, rfl⟩
    by_cases h2 : a = 0x002
    · subst h2
      have h3 : ¬ v[3] = true := by simpa [noAbort] using hno
      exact ⟨_, runEvent_cmdrWrite v s, by rw [commands_eq, if_neg h3]; rfl⟩
    · exact ⟨_, runEvent_otherWrite h0 h2 v s, rfl⟩

theorem bytesOf_cons_of_not_byte {e : Event} (hbyte : ∀ b, e ≠ .byte b) (es : List Event) :
    bytesOf (e :: es) = bytesOf es := by
  cases e with
  | byte b => exact absurd rfl (hbyte b)
  | _ => rfl

/-- Events that do not abort leave the parser where their bytes alone would, whatever comes between the bytes. -/
theorem runEvents_of_deliver {es : List Event} (hno : es.all noAbort = true) {s u t : State}
    (hsu : s.parser = u.parser) (h : deliver (bytesOf es) s = .next t) :
    ∃ v, runEvents es u = .next v ∧ v.parser = t.parser := by
  induction es generalizing s u with
  | nil => cases h; exact ⟨u, rfl, hsu.symm⟩
  | cons e es ih =>
    obtain ⟨hnoe, hnoes⟩ : noAbort e = true ∧ es.all noAbort = true := by simpa using hno
    by_cases hbyte : ∀ b, e ≠ .byte b
    · rw [bytesOf_cons_of_not_byte hbyte] at h
      obtain ⟨u', hu', hkept⟩ := runEvent_keeps_parser hnoe hbyte u
      obtain ⟨v, hv, hvt⟩ := ih hnoes (hsu.trans hkept.symm) h
      exact ⟨v, andThen_next_iff.mpr ⟨u', hu', hv⟩, hvt⟩
    · obtain ⟨b, rfl⟩ : ∃ b, e = .byte b := by simpa using hbyte
      obtain ⟨s', hs', hrest⟩ := andThen_next_iff.mp h
      obtain ⟨u', hu', hsame⟩ := deliverByte_sameParser hsu hs'
      obtain ⟨v, hv, hvt⟩ := ih hnoes hsame.symm hrest
      exact ⟨v, andThen_next_iff.mpr ⟨u', runEvent_byte_next_iff.mpr hu', hv⟩, hvt⟩

theorem runEvents_snoc {es : List Event} {s u : State} (h : runEvents es s = .next u) (e : Event) :
    runEvents (es ++ [e]) s = runEvent e u := by
  induction es generalizing s with
  | nil =>
    cases h
    rw [List.nil_append, runEvents]
    cases runEvent e u <;> rfl
  | cons a es ih =>
    obtain ⟨v, hv, hrest⟩ := runEvents_cons_next h
    rw [List.cons_append, runEvents, hv, andThen_next, ih hrest]

/-- A result leaves `PHASE = HUNT`, so inside a frame the last event recorded none. -/
theorem out_quiet_of_inFrame {es : List Event} {s t : State} (hes : es ≠ []) (h : runEvents es s = .next t)
    (hp : t.phase ≠ .hunt) : t.out = Out.quiet := by
  induction es generalizing s with
  | nil => exact absurd rfl hes
  | cons e es ih =>
    obtain ⟨u, hu, hrest⟩ := runEvents_cons_next h
    by_cases hlast : es = []
    · subst hlast
      cases hrest
      rcases runEvent_records hu with ⟨-, hout⟩ | ⟨hend, -⟩
      · exact hout
      · exact absurd (phase_of_endsFrame hend hu) hp
    · exact ih hlast hrest

/-! ### From the length byte to the last byte -/

/-- The frame's bytes up to the first byte of its CRC field. -/
theorem deliver_crcHi {s u : State} {lenb : Byte} {body : List Byte} (hrun : deliver (lenb :: body) s = .next u)
    (h : BodyReceived s u lenb body) (hfull : body.length = lenb.toNat) (hi : Byte) :
    deliver (lenb :: (body ++ [hi])) s = .next (u.takeCrcHi hi) := by
  have hphase : u.phase = .crcHi := h.phase.trans (if_pos hfull)
  have hbyte : deliverByte hi u = .next (u.takeCrcHi hi) :=
    runEvent_byte_next_iff.mp ((runEvent_crcHi hphase hi).trans (exec_crchiByte hphase hi))
  rw [← List.cons_append, deliver_append, hrun, andThen_next, deliver_cons, hbyte]
  rfl

/-- `L + 2` bytes from `LEN` lead to `CRC_LO` and fewer, but one at least, to a phase before it (R99). -/
theorem deliver_phase_of_len {s : State} (h : s.Inv) (hp : s.phase = .len) {lenb : Byte} {bs : List Byte}
    (hle : bs.length ≤ lenb.toNat + 1) :
    ∃ t, deliver (lenb :: bs) s = .next t ∧ t.phase ≠ .hunt ∧ (bs.length = lenb.toNat + 1 → t.phase = .crcLo) := by
  by_cases hbody : bs.length ≤ lenb.toNat
  · obtain ⟨t, ht, hrec⟩ := deliver_bodyReceived h hp hbody
    refine ⟨t, ht, ?_, fun hlong => by omega⟩
    rw [hrec.phase]
    split_ifs <;> simp
  · obtain ⟨body, hi, rfl⟩ : ∃ body hi, bs = body ++ [hi] := by
      rcases List.eq_nil_or_concat' bs with rfl | hsnoc
      · simp at hbody
      · exact hsnoc
    have hfull : body.length = lenb.toNat := by
      rw [List.length_append, List.length_singleton] at hle hbody
      omega
    obtain ⟨u, hu, hrec⟩ := deliver_bodyReceived h hp hfull.le
    exact ⟨u.takeCrcHi hi, deliver_crcHi hu hrec hfull hi, by simp, fun _ => rfl⟩

/-- Settles O17: the table event by event; along a frame the bytes alone count, by `runEvents_of_deliver`. -/
theorem phaseFollowsTheGraph : Obligations.PhaseFollowsTheGraph := by
  refine ⟨fun s e h => ?_, fun s es lenb bs h hp hno hbytes => ⟨fun hfew => ?_, fun hall last => ?_, ?_⟩⟩
  · obtain ⟨t, ht, -⟩ := runEvent_goesOn_inv h e
    exact ⟨t, ht, runEvent_phase ht⟩
  · obtain ⟨t, ht, hphase, -⟩ := deliver_phase_of_len h hp (show bs.length ≤ lenb.toNat + 1 by omega)
    obtain ⟨v, hv, hsame⟩ := runEvents_of_deliver hno rfl (hbytes ▸ ht)
    have hframe : v.phase ≠ .hunt := (congrArg State.phase hsame).trans_ne hphase
    have hne : es ≠ [] := by rintro rfl; cases hbytes
    exact ⟨v, hv, hframe, by rw [out_quiet_of_inFrame hne hv hframe]; rfl⟩
  · obtain ⟨t, ht, -, hphase⟩ := deliver_phase_of_len h hp (show bs.length ≤ lenb.toNat + 1 by omega)
    obtain ⟨v, hv, hsame⟩ := runEvents_of_deliver hno rfl (hbytes ▸ ht)
    have hlo : v.phase = .crcLo := (congrArg State.phase hsame).trans (hphase (by omega))
    exact ⟨v.takeCrcLo last, by rw [runEvents_snoc hv, runEvent_crcLo hlo, exec_crcloByte hlo], rfl, rfl⟩
  · have := lenb.isLt
    omega

end Sys2Proof.Machine
end

section
/-! PROOFS. A whole frame (spec/42_parser.md R100): what its bytes but the last leave, with other events between them, and
what the last byte then reports. -/

namespace Sys2Proof.Machine

/-! ### The body of a frame that a marker opened -/

theorem lenByteOf_toNat {body : List Byte} (hlen : body.length ≤ 255) : (lenByteOf body).toNat = body.length := by
  rw [lenByteOf, BitVec.toNat_ofNat]
  exact Nat.mod_eq_of_lt (by omega)

theorem ne_zero_of_toNat_eq {b : Byte} {n : Nat} (h : b.toNat = n) (hpos : 1 ≤ n) : b ≠ 0 := by
  rintro rfl
  have hzero : 0 = n := h
  omega

/-- More body bytes, as long as the length byte leaves room for them. -/
theorem BodyReceived.deliver {s t : State} {lenb : Byte} {body : List Byte} (h : BodyReceived s t lenb body)
    {rest : List Byte} (hle : (body ++ rest).length ≤ lenb.toNat) :
    ∃ u, deliver rest t = .next u ∧ BodyReceived s u lenb (body ++ rest) := by
  induction rest generalizing t body with
  | nil => exact ⟨t, rfl, by rwa [List.append_nil]⟩
  | cons b rest ih =>
    have hroom : body.length < lenb.toNat := by simp only [List.length_append, List.length_cons] at hle; omega
    have hphase : t.phase = .body := h.phase.trans (if_neg hroom.ne)
    have hlt : t.idx.toNat < t.len.toNat := by rwa [h.idx, h.len]
    rw [List.append_cons] at hle ⊢
    obtain ⟨u, hu, hrec⟩ := ih (h.snoc b hlt) hle
    exact ⟨u, by rw [deliver_cons, deliverByte_of_body hphase hlt, andThen_next, hu], hrec⟩

/-- The marker starts the checksum and the index afresh, so nothing is asked of the state before it. -/
theorem bodyReceived_of_lock (s : State) {lenb : Byte} (hb : lenb ≠ 0) :
    BodyReceived s.lock (s.lock.takeLen lenb) lenb [] := by
  have hpos : 0 ≠ lenb.toNat := fun h0 => hb (BitVec.eq_of_toNat_eq h0.symm)
  exact ⟨rfl, rfl, rfl, rfl, by simp, fun _ _ => rfl, (if_neg hpos).symm⟩

theorem deliver_lock_bodyReceived (s : State) {body : List Byte} (hpos : 1 ≤ body.length) (hlen : body.length ≤ 255) :
    ∃ u, deliver (lenByteOf body :: body) s.lock = .next u ∧ BodyReceived s.lock u (lenByteOf body) body := by
  have hb : lenByteOf body ≠ 0 := ne_zero_of_toNat_eq (lenByteOf_toNat hlen) hpos
  obtain ⟨u, hu, hrec⟩ := (bodyReceived_of_lock s hb).deliver (rest := body) (lenByteOf_toNat hlen).ge
  exact ⟨u, by rw [deliver_cons, deliverByte_of_len rfl, if_neg hb, andThen_next, hu], hrec⟩

/-- R37 item 1 by itself: inside a frame no sync byte is counted. -/
theorem deliverByte_keeps_syncCnt {b : Byte} {s t : State} (hs : s.phase ≠ .hunt → s.syncCnt = 0)
    (h : deliverByte b s = .next t) : t.phase ≠ .hunt → t.syncCnt = 0 := by
  rcases deliverByte_next h with ⟨-, -, -, rfl⟩ | ⟨hp, -, -, rfl⟩ | ⟨-, -, rfl⟩ | ⟨hp, -, rfl⟩ | ⟨hp, -, rfl⟩
    | ⟨hp, -, rfl⟩ | ⟨hp, -, rfl⟩ | ⟨hp, rfl⟩ | ⟨hp, rfl⟩
  · exact fun _ => rfl
  · exact fun hne => absurd hp hne
  · exact fun _ => rfl
  all_goals exact fun _ => hs (by simp [hp])

/-! ### All bytes of the frame but the last -/

/-- The parser has taken a frame with body `body` up to `hi`, the first byte of its CRC field; the last byte is next. -/
structure AwaitsLastByte (k : Word) (body : List Byte) (hi : Byte) (u : State) : Prop where
  phase : u.phase = .crcLo
  syncCnt : u.syncCnt = 0
  len : u.len.toNat = body.length
  idx : u.idx.toNat = body.length
  crc : u.crc = frameCrc k (lenByteOf body) body
  crcRxHi : u.crcRxHi = hi
  wbuf : ∀ i < body.length, u.wbuf.read i = body[i]?

/-- It is a condition on the parser's registers alone. -/
theorem AwaitsLastByte.of_sameParser {k : Word} {body : List Byte} {hi : Byte} {u v : State}
    (h : AwaitsLastByte k body hi u) (hsame : v.parser = u.parser) : AwaitsLastByte k body hi v where
  phase := (congrArg State.phase hsame).trans h.phase
  syncCnt := (congrArg State.syncCnt hsame).trans h.syncCnt
  len := (congrArg (·.len.toNat) hsame).trans h.len
  idx := (congrArg (·.idx.toNat) hsame).trans h.idx
  crc := (congrArg State.crc hsame).trans h.crc
  crcRxHi := (congrArg State.crcRxHi hsame).trans h.crcRxHi
  wbuf i hi' := (congrArg (·.wbuf.read i) hsame).trans (h.wbuf i hi')

theorem deliver_awaitsLastByte {s : State} (hp : s.phase = .hunt) (hc : s.syncCnt = 0) {body : List Byte}
    (hpos : 1 ≤ body.length) (hlen : body.length ≤ 255) (hi : Byte) :
    ∃ u, deliver (marker ++ lenByteOf body :: (body ++ [hi])) s = .next u ∧ AwaitsLastByte s.crcK body hi u := by
  obtain ⟨v, hv, hrec⟩ := deliver_lock_bodyReceived s hpos hlen
  have hfull : body.length = (lenByteOf body).toNat := (lenByteOf_toNat hlen).symm
  have hphase : v.phase = .crcHi := hrec.phase.trans (if_pos hfull)
  have hsync : v.phase ≠ .hunt → v.syncCnt = 0 :=
    deliver_keeps (P := fun t => t.phase ≠ .hunt → t.syncCnt = 0) deliverByte_keeps_syncCnt (fun _ => rfl) hv
  refine ⟨v.takeCrcHi hi, ?_, rfl, hsync (by simp [hphase]), ?_, hrec.idx, hrec.crc, rfl, hrec.wbuf⟩
  · rw [deliver_append, deliver_marker hp hc, andThen_next, deliver_crcHi hv hrec hfull hi]
  · rw [State.takeCrcHi_len, hrec.len, hfull]

/-! ### The host's view of a recorded body -/

theorem wordOfBytes_zero (b : Byte) : wordOfBytes 0 b = b.setWidth 16 := by
  apply BitVec.eq_of_toNat_eq
  have hb := b.isLt
  rw [wordOfBytes_toNat, BitVec.toNat_setWidth, Nat.mod_eq_of_lt (by omega)]
  simp

/-- The host reads element `i` of the body at address `100 + i` (R49, R124). -/
theorem hostRead_body (s : State) {i : Nat} (hi : i < 255) :
    s.hostRead (BitVec.ofNat 9 (0x100 + i)) = (s.bodyWindow i).setWidth 16 := by
  have ha : (BitVec.ofNat 9 (0x100 + i)).toNat = 0x100 + i := by
    rw [BitVec.toNat_ofNat]; exact Nat.mod_eq_of_lt (by omega)
  have hne {c : Addr} (hc : c.toNat < 0x100) : BitVec.ofNat 9 (0x100 + i) ≠ c := by
    rintro rfl
    omega
  unfold State.hostRead
  iterate 11 rw [if_neg (hne (by decide))]
  rw [if_pos (by omega), ha, Nat.add_sub_cancel_left, wordOfBytes_zero]

theorem Recorded.bodyWindow {s t : State} {st : Status} {ok : Bool} {rx : Word} (h : Recorded s t st ok rx) {i : Nat}
    (hi : i < s.idx.toNat) {c : Byte} (hc : s.wbuf.read i = some c) : t.bodyWindow i = c := by
  have hread := h.copied i hi c hc
  rw [State.bodyWindow, h.count, if_pos hi, hread]
  rfl

/-! ### The last byte -/

/-- With a body that is not empty, a good checksum is `OK`, and a bad one is `BAD_CRC` where `STRICT` is set (R96). -/
theorem recorded_verdict {k rx : Word} {body : List Byte} {u : State} (h : AwaitsLastByte k body (hiByte rx) u)
    (hpos : 1 ≤ body.length) {st : Status}
    (hst : (st = .ok ∧ rx = u.crc) ∨ (st = .badCrc ∧ rx ≠ u.crc ∧ u.strict = true)) :
    Recorded u (u.takeCrcLo (loByte rx)) st (decide (st = .ok)) rx := by
  have hrx : u.crcRxHi ++ loByte rx = rx := h.crcRxHi ▸ wordOfBytes_hiByte_loByte rx
  have hlen : u.len ≠ 0 := ne_zero_of_toNat_eq h.len hpos
  have hrec := recorded_takeCrcLo u (loByte rx)
  rw [hrx] at hrec
  obtain ⟨rfl, hgood⟩ | ⟨rfl, hbad, hstrict⟩ := hst
  · rwa [if_neg (fun hno => hno.1 hgood), if_neg hlen, decide_eq_true hgood] at hrec
  · rwa [if_pos ⟨hbad, hstrict⟩, decide_eq_false hbad] at hrec

/-- The last byte of a frame's bytes, apart from those before it. -/
theorem frame_bytes_snoc {bs body : List Byte} {last lenb : Byte} {rx : Word}
    (h : bs ++ [last] = [0xA5, 0xA5, 0xA5, 0xA5] ++ lenb :: (body ++ be16 rx)) :
    bs = marker ++ lenb :: (body ++ [hiByte rx]) ∧ last = loByte rx := by
  have hsnoc : bs ++ [last] = (marker ++ lenb :: (body ++ [hiByte rx])) ++ [loByte rx] := by
    simpa [marker, Config.syncByte, be16] using h
  obtain ⟨hbs, hlast⟩ := List.append_inj' hsnoc rfl
  exact ⟨hbs, List.singleton_inj.mp hlast⟩

/-- Settles O18: the bytes but the last leave `AwaitsLastByte`, whatever comes between them, and the last one records. -/
theorem wholeFrameIsReported : Obligations.WholeFrameIsReported := by
  intro s es last body rx hp hc hpos hlen hno hbytes
  obtain ⟨hbs, rfl⟩ := frame_bytes_snoc hbytes
  obtain ⟨t, ht, htakes⟩ := deliver_awaitsLastByte hp hc hpos hlen (hiByte rx)
  obtain ⟨u, hu, hsame⟩ := runEvents_of_deliver hno rfl (hbs ▸ ht)
  have h : AwaitsLastByte s.crcK body (hiByte rx) u := htakes.of_sameParser hsame
  have hlast : runEvents (es ++ [.byte (loByte rx)]) s = .next (u.takeCrcLo (loByte rx)) := by
    rw [runEvents_snoc hu, runEvent_crcLo h.phase, exec_crcloByte h.phase]
  refine ⟨u, u.takeCrcLo (loByte rx), hu, hlast, fun st hst => ?_⟩
  rw [← h.crc] at hst ⊢
  have hrec : Recorded u (u.takeCrcLo (loByte rx)) st (decide (st = .ok)) rx := recorded_verdict h hpos hst
  have hread (i : Nat) (hi : i < body.length) : u.wbuf.read i = some body[i] :=
    (h.wbuf i hi).trans (List.getElem?_eq_getElem hi)
  refine ⟨hrec.out, hrec.status_eq, hrec.crcOk, hrec.phase.trans h.phase, hrec.len ▸ h.len, hrec.count ▸ h.idx, ?_,
    fun i hi => ⟨?_, hostRead_body _ (by omega)⟩, hrec.crcRx, hrec.crcCalc, hrec.resSkip, hrec.skip, rfl, h.syncCnt⟩
  · rw [hrec.cmd_first body[0] (h.idx ▸ hpos) (hread 0 hpos), List.head?_eq_getElem?, List.getElem?_eq_getElem hpos]
  · rw [hrec.bodyWindow (h.idx ▸ hi) (hread i hi), List.getElem?_eq_getElem hi]

end Sys2Proof.Machine
end

section
/-! PROOFS. The mode table and the reference codec (spec/43_commands.md R107, R108, R111, R112, R116). -/

namespace Sys2Proof.Machine

/-! ### The mode table -/

theorem modeId_modeName {m : Byte} (hm : m.toNat ≤ 8) : modeId (modeName m) = m := by
  have hid (n : Fin 9) : modeId (modeName (BitVec.ofNat 8 n)) = BitVec.ofNat 8 n := by revert n; decide
  simpa using hid ⟨m.toNat, by omega⟩

theorem modeName_of_gt {m : Byte} (hm : 8 < m.toNat) : modeName m = "USB" := by
  have hne (n : Byte) (hn : n.toNat ≤ 8) : m ≠ n := by rintro rfl; omega
  unfold modeName
  iterate 8 rw [if_neg (hne _ (by decide))]

/-- Settles O55: the nine ids by evaluation, and outside the table every comparison fails. -/
theorem modeTableIsABijectionWithFallback : Obligations.ModeTableIsABijectionWithFallback := by
  refine ⟨fun _ => modeId_modeName, fun _ => modeName_of_gt, by decide, by decide, fun n hn => ?_⟩
  simp only [List.mem_cons, List.not_mem_nil, or_false, not_or] at hn
  obtain ⟨-, h1, h2, h3, h4, h5, h6, h7, h8⟩ := hn
  simp only [modeId, h1, h2, h3, h4, h5, h6, h7, h8, if_false]

/-! ### The reference codec -/

/-- What `frame_decode` returns for a body whose checksum it accepts (R112). -/
def parsedBody : List Byte → Parsed
  | [] => .emptyBody
  | cmd :: payload => .frame cmd payload

theorem frameDecode_marker (k : Word) (strict : Bool) (lenb : Byte) (rest : List Byte) :
    frameDecode k strict (marker ++ lenb :: rest) = decodeAfterLen k strict lenb rest := by
  simp [frameDecode, marker]

theorem decodeAfterLen_short (k : Word) (strict : Bool) {lenb : Byte} {rest : List Byte}
    (h : rest.length < lenb.toNat + 2) : decodeAfterLen k strict lenb rest = .truncated := if_pos h

/-- The verdict of `frame_decode` on a buffer that holds a whole frame, with CRC field `hi lo` (R112). -/
theorem decodeAfterLen_whole (k : Word) (strict : Bool) {body : List Byte} (hlen : body.length ≤ 255) (hi lo : Byte)
    (more : List Byte) :
    decodeAfterLen k strict (lenByteOf body) (body ++ hi :: lo :: more)
      = if hi ++ lo ≠ frameCrc k (lenByteOf body) body ∧ strict = true then .badChecksum else parsedBody body := by
  have hn : (lenByteOf body).toNat = body.length := lenByteOf_toNat hlen
  have hlong : ¬ (body ++ hi :: lo :: more).length < body.length + 2 := by simp
  have hcmp : (strict && !crcCmp (wordOfBytes hi lo) (frameCrc k (lenByteOf body) body)) = true
      ↔ hi ++ lo ≠ frameCrc k (lenByteOf body) body ∧ strict = true := by
    simp [crcCmp, and_comm, wordOfBytes]
  simp only [decodeAfterLen, hn, if_neg hlong, List.take_left, List.getD_append_right, hcmp, le_refl, Nat.sub_self,
    Nat.le_add_right, Nat.add_sub_cancel_left, List.getD_cons_zero, List.getD_cons_succ]
  cases body <;> rfl

/-- A buffer that begins with the marker and ends before its frame does. -/
theorem frameDecode_short (k : Word) (strict : Bool) {tail : List Byte}
    (hshort : ∀ lenb rest, tail = lenb :: rest → rest.length < lenb.toNat + 2) :
    frameDecode k strict (marker ++ tail) = .truncated := by
  cases tail with
  | nil => rfl
  | cons lenb rest => rw [frameDecode_marker, decodeAfterLen_short k strict (hshort lenb rest rfl)]

theorem frameDecode_noMarker (k : Word) (strict : Bool) {raw : List Byte} (hno : ¬ marker <+: raw) :
    frameDecode k strict raw = .badSync :=
  if_pos fun htake : raw.take 4 = marker => hno (htake ▸ List.take_prefix 4 raw)

/-- A buffer with all bytes of a frame after its marker, apart. -/
theorem exists_body_of_le {lenb : Byte} {rest : List Byte} (hlong : lenb.toNat + 2 ≤ rest.length) :
    ∃ body hi lo more, rest = body ++ hi :: lo :: more ∧ lenb = lenByteOf body ∧ body.length ≤ 255 := by
  have hlt := lenb.isLt
  have hbody : (rest.take lenb.toNat).length = lenb.toNat := by rw [List.length_take]; omega
  obtain ⟨hi, lo, more, hfield⟩ : ∃ hi lo more, rest.drop lenb.toNat = hi :: lo :: more := by
    have hdrop : 2 ≤ (rest.drop lenb.toNat).length := by rw [List.length_drop]; omega
    match rest.drop lenb.toNat, hdrop with
    | hi :: lo :: more, _ => exact ⟨hi, lo, more, rfl⟩
  refine ⟨rest.take lenb.toNat, hi, lo, more, ?_, ?_, by omega⟩
  · rw [← hfield, List.take_append_drop]
  · rw [lenByteOf, hbody, BitVec.ofNat_toNat, BitVec.setWidth_eq]

/-- A frame that `frame_encode` built is whole and has its checksum (R116). -/
theorem frameDecode_frameOf (k : Word) (strict : Bool) {body : List Byte} (hlen : body.length ≤ 255) :
    frameDecode k strict (frameOf k body) = parsedBody body := by
  rw [frameOf, frameDecode_marker, be16, decodeAfterLen_whole k strict hlen,
    if_neg fun hbad => hbad.1 (wordOfBytes_hiByte_loByte _)]

/-- Settles O54: the encoder's bytes as `FRAME` lays them out, and the decoder on a whole frame. -/
theorem referenceCodecRoundTrips : Obligations.ReferenceCodecRoundTrips := by
  refine fun k cmd payload => ⟨fun hlong => if_pos hlong, fun hlen => ?_⟩
  refine ⟨frameOf k (cmd :: payload), frameCrc k (lenByteOf (cmd :: payload)) (cmd :: payload), if_neg (by omega), ?_,
    ?_, fun strict => frameDecode_frameOf k strict (Nat.succ_le_succ hlen)⟩
  · rfl
  · simp [frameOf, frameCrc, marker]

end Sys2Proof.Machine
end

section
/-! PROOFS. A frame up to its last byte: what its bytes leave alone, and that they record nothing before the verdict
(spec/42_parser.md R86 to R97). -/

namespace Sys2Proof.Machine

/-! ### The bytes before the last -/

/-- What the bytes of a frame leave alone until the last one: `SYNC_CNT`, the flags and `RES_BODY`. -/
structure KeptInFrame (s t : State) : Prop where
  syncCnt : t.syncCnt = s.syncCnt
  skip : t.skip = s.skip
  resValid : t.resValid = s.resValid
  overrun : t.overrun = s.overrun
  resBody : t.resBody = s.resBody

theorem KeptInFrame.trans {s t u : State} (h₁ : KeptInFrame s t) (h₂ : KeptInFrame t u) : KeptInFrame s u where
  syncCnt := h₂.syncCnt.trans h₁.syncCnt
  skip := h₂.skip.trans h₁.skip
  resValid := h₂.resValid.trans h₁.resValid
  overrun := h₂.overrun.trans h₁.overrun
  resBody := h₂.resBody.trans h₁.resBody

/-- How many bytes are still to come of a frame whose length byte has come (R58); else 0. -/
def State.bytesLeft (s : State) : Nat :=
  match s.phase with
  | .hunt => 0
  | .len => 0
  | .body => s.len.toNat - s.idx.toNat + 2
  | .crcHi => 2
  | .crcLo => 1

theorem bytesLeft_of_hunt {s : State} (hp : s.phase = .hunt) : s.bytesLeft = 0 := by simp only [State.bytesLeft, hp]

theorem bytesLeft_of_len {s : State} (hp : s.phase = .len) : s.bytesLeft = 0 := by simp only [State.bytesLeft, hp]

theorem bytesLeft_of_body {s : State} (hp : s.phase = .body) : s.bytesLeft = s.len.toNat - s.idx.toNat + 2 := by
  simp only [State.bytesLeft, hp]

theorem bytesLeft_of_crcHi {s : State} (hp : s.phase = .crcHi) : s.bytesLeft = 2 := by simp only [State.bytesLeft, hp]

theorem bytesLeft_of_crcLo {s : State} (hp : s.phase = .crcLo) : s.bytesLeft = 1 := by simp only [State.bytesLeft, hp]

theorem deliverByte_beforeLast {b : Byte} {s t : State} (hmore : 1 < s.bytesLeft) (h : deliverByte b s = .next t) :
    KeptInFrame s t ∧ t.bytesLeft + 1 = s.bytesLeft := by
  rcases deliverByte_next h with ⟨hp, -⟩ | ⟨hp, -⟩ | ⟨hp, -⟩ | ⟨hp, -⟩ | ⟨hp, -⟩ | ⟨hp, hlt, rfl⟩ | ⟨hp, hlast, rfl⟩
    | ⟨hp, rfl⟩ | ⟨hp, -⟩
  iterate 3 simp [bytesLeft_of_hunt hp] at hmore
  iterate 2 simp [bytesLeft_of_len hp] at hmore
  · refine ⟨⟨rfl, rfl, rfl, rfl, rfl⟩, ?_⟩
    rw [bytesLeft_of_body hp, bytesLeft_of_body rfl, State.takeBody_idx, toNat_idx_succ (by omega), State.takeBody_len]
    omega
  · refine ⟨⟨rfl, rfl, rfl, rfl, rfl⟩, ?_⟩
    rw [bytesLeft_of_body hp, bytesLeft_of_crcHi rfl]
    omega
  · exact ⟨⟨rfl, rfl, rfl, rfl, rfl⟩, by rw [bytesLeft_of_crcHi hp, bytesLeft_of_crcLo rfl]⟩
  · simp [bytesLeft_of_crcLo hp] at hmore

theorem deliver_beforeLast {bs : List Byte} {s t : State} (hfew : bs.length < s.bytesLeft)
    (h : deliver bs s = .next t) : KeptInFrame s t ∧ t.bytesLeft + bs.length = s.bytesLeft := by
  induction bs generalizing s with
  | nil => cases h; exact ⟨⟨rfl, rfl, rfl, rfl, rfl⟩, rfl⟩
  | cons b bs ih =>
    rw [List.length_cons] at hfew ⊢
    obtain ⟨u, hu, hrest⟩ := andThen_next_iff.mp h
    obtain ⟨hkept, hleft⟩ := deliverByte_beforeLast (by omega) hu
    obtain ⟨hkept', hleft'⟩ := ih (by omega) hrest
    exact ⟨hkept.trans hkept', by omega⟩

theorem deliverByte_lock (s : State) (lenb : Byte) :
    ∃ t, deliverByte lenb s.lock = .next t ∧ KeptInFrame s.lock t ∧ t.bytesLeft = lenb.toNat + 2 := by
  have hlen : s.lock.phase = .len := rfl
  by_cases hb : lenb = 0
  · exact ⟨s.lock.takeLenZero, by rw [deliverByte_of_len hlen, if_pos hb], ⟨rfl, rfl, rfl, rfl, rfl⟩, by rw [hb]; rfl⟩
  · exact ⟨s.lock.takeLen lenb, by rw [deliverByte_of_len hlen, if_neg hb], ⟨rfl, rfl, rfl, rfl, rfl⟩, rfl⟩

/-- From the marker on, the length byte `L` and at most `L + 1` bytes more record nothing (R99). -/
theorem deliver_lock_beforeLast {s t : State} {lenb : Byte} {bs : List Byte} (hfew : bs.length < lenb.toNat + 2)
    (h : deliver (lenb :: bs) s.lock = .next t) :
    KeptInFrame s.lock t ∧ t.bytesLeft + bs.length = lenb.toNat + 2 := by
  obtain ⟨v, hv, hkept, hleft⟩ := deliverByte_lock s lenb
  rw [deliver_cons, hv, andThen_next] at h
  obtain ⟨hkept', hleft'⟩ := deliver_beforeLast (hleft ▸ hfew) h
  exact ⟨hkept.trans hkept', hleft'.trans hleft⟩

theorem deliver_lock_wholeBody (s : State) {body : List Byte} (hlen : body.length ≤ 255) :
    ∃ u, deliver (lenByteOf body :: body) s.lock = .next u ∧ BodyReceived s.lock u (lenByteOf body) body := by
  rcases Nat.eq_zero_or_pos body.length with hempty | hpos
  · obtain rfl := List.length_eq_zero_iff.mp hempty
    exact ⟨s.lock.takeLenZero, rfl, rfl, rfl, rfl, rfl, by simp, fun _ _ => rfl, rfl⟩
  · exact deliver_lock_bodyReceived s hpos hlen

/-- `AwaitsLastByte` with what the frame's bytes, from state `s` in phase `HUNT`, have left alone. -/
structure BeforeLastByte (s u : State) (body : List Byte) (hi : Byte) : Prop where
  awaits : AwaitsLastByte s.crcK body hi u
  wbuf_kept : ∀ i, body.length ≤ i → u.wbuf.read i = s.wbuf.read i
  kept : KeptInFrame s.lock u
  stream : KeptByStream s u

theorem deliver_beforeLastByte {s : State} (hp : s.phase = .hunt) (hc : s.syncCnt = 0) {body : List Byte}
    (hlen : body.length ≤ 255) (hi : Byte) :
    ∃ u, deliver (marker ++ lenByteOf body :: (body ++ [hi])) s = .next u ∧ BeforeLastByte s u body hi := by
  obtain ⟨v, hv, hrec⟩ := deliver_lock_wholeBody s hlen
  have hfull : body.length = (lenByteOf body).toNat := (lenByteOf_toNat hlen).symm
  have hlock : deliver (lenByteOf body :: (body ++ [hi])) s.lock = .next (v.takeCrcHi hi) :=
    deliver_crcHi hv hrec hfull hi
  have hrun : deliver (marker ++ lenByteOf body :: (body ++ [hi])) s = .next (v.takeCrcHi hi) := by
    rw [deliver_append, deliver_marker hp hc, andThen_next, hlock]
  obtain ⟨hkept, -⟩ := deliver_lock_beforeLast (by simp [hfull]) hlock
  have hlenv : (v.takeCrcHi hi).len.toNat = body.length := by rw [State.takeCrcHi_len, hrec.len, hfull]
  exact ⟨_, hrun, ⟨rfl, hkept.syncCnt, hlenv, hrec.idx, hrec.crc, rfl, hrec.wbuf⟩, hrec.wbuf_kept, hkept,
    deliver_keptByStream hrun⟩

/-! ### The last byte -/

section
variable {s u : State} {body : List Byte} {hi : Byte} (h : BeforeLastByte s u body hi)
include h

/-- The verdict in terms of the frame: its body, its CRC field and its checksum (R96). -/
theorem BeforeLastByte.recorded (lo : Byte) :
    Recorded u (u.takeCrcLo lo)
      (if hi ++ lo ≠ frameCrc s.crcK (lenByteOf body) body ∧ s.strict = true then .badCrc
        else if body = [] then .emptyBody else .ok)
      (decide (hi ++ lo = frameCrc s.crcK (lenByteOf body) body)) (hi ++ lo) := by
  have hempty : u.len = 0 ↔ body = [] := by
    rw [← List.length_eq_zero_iff, ← h.awaits.len]
    exact ⟨fun h0 => by rw [h0]; rfl, fun h0 => BitVec.eq_of_toNat_eq h0⟩
  have hrec := recorded_takeCrcLo u lo
  simpa only [h.awaits.crcRxHi, h.awaits.crc, h.stream.strict, hempty] using hrec

theorem BeforeLastByte.window (lo : Byte) : ∀ i < body.length, body[i]? = some ((u.takeCrcLo lo).bodyWindow i) := by
  intro i hlt
  have hread : u.wbuf.read i = some body[i] := (h.awaits.wbuf i hlt).trans (List.getElem?_eq_getElem hlt)
  rw [(h.recorded lo).bodyWindow (h.awaits.idx ▸ hlt) hread, List.getElem?_eq_getElem hlt]

theorem BeforeLastByte.resCmd (lo : Byte) : (u.takeCrcLo lo).res.cmd = body.headD 0 := by
  cases body with
  | nil => exact (h.recorded lo).cmd_none (BitVec.eq_of_toNat_eq h.awaits.idx)
  | cons cmd payload => exact (h.recorded lo).cmd_first cmd (h.awaits.idx ▸ by simp) (h.awaits.wbuf 0 (by simp))

theorem BeforeLastByte.resSkip (lo : Byte) : (u.takeCrcLo lo).res.skip = s.skip :=
  (h.recorded lo).resSkip.trans h.kept.skip

theorem BeforeLastByte.deliverByte (lo : Byte) : deliverByte lo u = .next (u.takeCrcLo lo) :=
  runEvent_byte_next_iff.mp ((runEvent_crcLo h.awaits.phase lo).trans (exec_crcloByte h.awaits.phase lo))

end

end Sys2Proof.Machine
end

section
/-! PROOFS. The block and the reference `frame_decode` (spec/43_commands.md R113): a buffer that begins with the marker
is parsed from the marker on by both; of any other buffer the block reports that bytes were skipped. -/

namespace Sys2Proof.Machine

/-! ### The first result of a run -/

theorem firstResult_cons {e : Event} {s t : State} (h : runEvent e s = .next t) (es : List Event) :
    firstResult (e :: es) s = if t.out.done then some t else firstResult es t := by
  simp only [firstResult, h]

theorem firstResult_cons_of_quiet {e : Event} {s t : State} (h : runEvent e s = .next t) (hout : t.out = Out.quiet)
    (es : List Event) : firstResult (e :: es) s = firstResult es t := by
  rw [firstResult_cons h, hout]
  rfl

theorem firstResult_cons_of_done {e : Event} {s t : State} (h : runEvent e s = .next t) (hdone : t.out.done = true)
    (es : List Event) : firstResult (e :: es) s = some t := (firstResult_cons h es).trans (if_pos hdone)

/-- A recorded result sets `RES_VALID`, and bytes do not clear it: where it is 0, the bytes before recorded nothing. -/
theorem firstResult_bytes_append {bs : List Byte} {s t : State} (hrun : deliver bs s = .next t)
    (hv : t.resValid = false) (es : List Event) : firstResult (bytesAsEvents bs ++ es) s = firstResult es t := by
  induction bs generalizing s with
  | nil => cases hrun; rfl
  | cons b bs ih =>
    obtain ⟨u, hu, hrest⟩ := andThen_next_iff.mp hrun
    have hvu : u.resValid ≠ true := fun hset => by
      simp [deliver_keeps (P := fun s => s.resValid = true) deliverByte_keeps_resValid hset hrest] at hv
    rcases deliverByte_records hu with ⟨-, hout, -⟩ | ⟨-, -, hset⟩
    · exact (firstResult_cons_of_quiet (runEvent_byte_next_iff.mpr hu) hout _).trans (ih hrest)
    · exact absurd hset hvu

theorem firstResult_abort_inFrame {s : State} (hp : s.phase ≠ .hunt) : firstResult [.abort] s = some s.abortFrame :=
  firstResult_cons_of_done ((runEvent_abort s).trans (congrArg _ (abort_of_frame hp))) rfl []

/-! ### Skipped bytes are reported (R20, R25) -/

/-- The events from `s` say that bytes were skipped: in the first result, or in `SKIP` if there is none. -/
def ReportsSkip (es : List Event) (s : State) : Prop :=
  (firstResult es s = none ∧ ∃ t, runEvents es s = .next t ∧ t.skip = true)
    ∨ ∃ t, firstResult es s = some t ∧ t.res.skip = true

theorem ReportsSkip.cons {e : Event} {es : List Event} {s u : State} (hu : runEvent e s = .next u)
    (hout : u.out = Out.quiet) (h : ReportsSkip es u) : ReportsSkip (e :: es) s := by
  unfold ReportsSkip
  rw [firstResult_cons_of_quiet hu hout, runEvents, hu, andThen_next]
  exact h

theorem reportsSkip_of_done {e : Event} {es : List Event} {s u : State} (hu : runEvent e s = .next u)
    (hdone : u.out.done = true) (hskip : u.res.skip = true) : ReportsSkip (e :: es) s :=
  .inr ⟨u, firstResult_cons_of_done hu hdone es, hskip⟩

/-- A byte or an abort hands `SKIP` on to the result, or keeps it. -/
theorem runEvent_skip {e : Event} {s t : State} (he : e = .abort ∨ ∃ b, e = .byte b) (hskip : s.skip = true)
    (h : runEvent e s = .next t) :
    (t.out = Out.quiet ∧ t.skip = true) ∨ (t.out.done = true ∧ t.res.skip = true) := by
  obtain rfl | ⟨b, rfl⟩ := he
  · cases (runEvent_abort s).symm.trans h
    by_cases hp : s.phase = .hunt
    · rw [abort_of_hunt hp]; exact .inl ⟨rfl, by simp [skipOnAbort, hskip]⟩
    · rw [abort_of_frame hp]; exact .inr ⟨rfl, hskip⟩
  · rcases deliverByte_next (runEvent_byte_next_iff.mp h) with ⟨-, -, -, rfl⟩ | ⟨-, -, -, rfl⟩ | ⟨-, -, rfl⟩
      | ⟨-, -, rfl⟩ | ⟨-, -, rfl⟩ | ⟨-, -, rfl⟩ | ⟨-, -, rfl⟩ | ⟨-, rfl⟩ | ⟨-, rfl⟩
    iterate 2 exact .inl ⟨rfl, hskip⟩
    · exact .inl ⟨rfl, rfl⟩
    iterate 5 exact .inl ⟨rfl, hskip⟩
    · exact .inr ⟨rfl, hskip⟩

theorem reportsSkip_of_skip {es : List Event} (hes : ∀ e ∈ es, e = .abort ∨ ∃ b, e = .byte b) {s : State}
    (hinv : s.Inv) (hskip : s.skip = true) : ReportsSkip es s := by
  induction es generalizing s with
  | nil => exact .inl ⟨rfl, s, rfl, hskip⟩
  | cons e es ih =>
    obtain ⟨u, hu, huinv⟩ := runEvent_goesOn_inv hinv e
    rcases runEvent_skip (hes e (by simp)) hskip hu with ⟨hout, hkept⟩ | ⟨hdone, hres⟩
    · exact (ih (fun e' he' => hes e' (by simp [he'])) huinv hkept).cons hu hout
    · exact reportsSkip_of_done hu hdone hres

theorem bytes_abort_streamed (bs : List Byte) : ∀ e ∈ bytesAsEvents bs ++ [.abort], e = .abort ∨ ∃ b, e = .byte b := by
  intro e he
  rcases List.mem_append.mp he with hbyte | habort
  · obtain ⟨b, -, rfl⟩ := List.mem_map.mp hbyte
    exact .inr ⟨b, rfl⟩
  · exact .inl (List.mem_singleton.mp habort)

/-- A partial marker and bytes that do not make it a marker first of all: some byte or the abort breaks it off. -/
theorem reportsSkip_of_noMarker {bs : List Byte} {s : State} (hinv : s.Inv) (hp : s.phase = .hunt)
    (hno : ¬ marker <+: s.partialMarker ++ bs) (hne : s.partialMarker ++ bs ≠ []) :
    ReportsSkip (bytesAsEvents bs ++ [.abort]) s := by
  induction bs generalizing s with
  | nil =>
    have hc : s.syncCnt ≠ 0 := fun h0 => hne (by rw [partialMarker_of_none h0]; rfl)
    have habort : runEvent .abort s = .next s.abortHunt := (runEvent_abort s).trans (congrArg _ (abort_of_hunt hp))
    have hskip : s.abortHunt.skip = true := by
      rw [State.abortHunt_skip, skipOnAbort_eq, decide_eq_true hc, Bool.or_true]
    exact ReportsSkip.cons habort rfl (.inl ⟨rfl, _, rfl, hskip⟩)
  | cons b bs ih =>
    by_cases hb : b = Config.syncByte
    · subst hb
      have hc : s.syncCnt ≠ 3 := fun h3 => hno ⟨bs, by rw [partialMarker_of_three h3]; rfl⟩
      have hmore : s.countSync.partialMarker ++ bs = s.partialMarker ++ Config.syncByte :: bs := by
        rw [partialMarker_countSync hc, List.append_assoc, List.singleton_append]
      exact (ih (inv_countSync hinv hp) hp (hmore ▸ hno) (hmore ▸ hne)).cons
        ((runEvent_syncByte hp hc).trans (exec_huntA5 hp hc)) rfl
    · exact (reportsSkip_of_skip (bytes_abort_streamed bs) (inv_skipByte hinv) rfl).cons
        ((runEvent_other_byte hp hb).trans (exec_huntSkip hp hb)) rfl

/-! ### A buffer that begins with the marker -/

section
variable {s : State} (hp : s.phase = .hunt) (hc : s.syncCnt = 0) (hv : s.resValid = false)
include hp hc hv

/-- A buffer that ends before its frame does leaves the block in the frame, where the abort records `TRUNCATED`. -/
theorem firstResult_short (hinv : s.Inv) (hskip : s.skip = false) {tail : List Byte}
    (hshort : ∀ lenb rest, tail = lenb :: rest → rest.length < lenb.toNat + 2) :
    firstResult (bytesAsEvents (marker ++ tail)) s = none
    ∧ ∃ t, firstResult (bytesAsEvents (marker ++ tail) ++ [.abort]) s = some t ∧ t.out.status = .truncated
      ∧ t.res.skip = false := by
  obtain ⟨u, hu⟩ := deliver_goesOn (inv_lock hinv) tail
  obtain ⟨hkept, hframe⟩ : KeptInFrame s.lock u ∧ u.phase ≠ .hunt := by
    cases tail with
    | nil => cases hu; exact ⟨⟨rfl, rfl, rfl, rfl, rfl⟩, by simp⟩
    | cons lenb rest =>
      have hfew := hshort lenb rest rfl
      obtain ⟨hkept, hleft⟩ := deliver_lock_beforeLast hfew hu
      exact ⟨hkept, fun hhunt => by rw [bytesLeft_of_hunt hhunt] at hleft; omega⟩
  have hrun : deliver (marker ++ tail) s = .next u := by rw [deliver_append, deliver_marker hp hc, andThen_next, hu]
  have hvu : u.resValid = false := hkept.resValid.trans hv
  have hnone : firstResult (bytesAsEvents (marker ++ tail)) s = none := by
    simpa [firstResult] using firstResult_bytes_append hrun hvu []
  refine ⟨hnone, u.abortFrame, ?_, rfl, hkept.skip.trans hskip⟩
  rw [firstResult_bytes_append hrun hvu, firstResult_abort_inFrame hframe]

/-- The last byte of the first frame in the buffer gives its first result. -/
theorem firstResult_whole {body : List Byte} (hlen : body.length ≤ 255) (hi lo : Byte) (more : List Byte)
    (es : List Event) :
    ∃ u, BeforeLastByte s u body hi
      ∧ firstResult (bytesAsEvents (marker ++ lenByteOf body :: (body ++ hi :: lo :: more)) ++ es) s
        = some (u.takeCrcLo lo) := by
  obtain ⟨u, hu, h⟩ := deliver_beforeLastByte hp hc hlen hi
  have hsplit : bytesAsEvents (marker ++ lenByteOf body :: (body ++ hi :: lo :: more)) ++ es
      = bytesAsEvents (marker ++ lenByteOf body :: (body ++ [hi])) ++ .byte lo :: (bytesAsEvents more ++ es) := by
    simp [bytesAsEvents]
  refine ⟨u, h, ?_⟩
  rw [hsplit, firstResult_bytes_append hu (h.kept.resValid.trans hv)]
  exact firstResult_cons_of_done (runEvent_byte_next_iff.mpr (h.deliverByte lo)) rfl _

end

/-! ### Every buffer -/

/-- Settles O53: the buffer holds no marker first of all, or a marker and less than a frame, or a whole frame, whose
last byte makes the same comparisons as `frame_decode`. -/
theorem blockAgreesWithFrameDecode : Obligations.BlockAgreesWithFrameDecode := by
  intro k strict raw s es
  have hinv : s.Inv := resetStateHasTheInvariants.1
  by_cases hmarker : marker <+: raw
  · obtain ⟨tail, rfl⟩ := hmarker
    by_cases hshort : ∀ lenb rest, tail = lenb :: rest → rest.length < lenb.toNat + 2
    · rw [frameDecode_short k strict hshort]
      exact firstResult_short rfl rfl rfl hinv rfl hshort
    · simp only [not_forall, not_lt] at hshort
      obtain ⟨lenb, rest, rfl, hlong⟩ := hshort
      obtain ⟨body, hi, lo, more, rfl, rfl, hlen⟩ := exists_body_of_le hlong
      obtain ⟨u, h, hfirst⟩ := firstResult_whole (s := s) rfl rfl rfl hlen hi lo more [.abort]
      have hout := congrArg Out.status (h.recorded lo).out
      rw [frameDecode_marker, decodeAfterLen_whole k strict hlen]
      by_cases hbad : hi ++ lo ≠ frameCrc k (lenByteOf body) body ∧ strict = true
      · rw [if_pos hbad]
        exact ⟨_, hfirst, hout.trans (if_pos hbad), h.resSkip lo⟩
      · rw [if_neg hbad]
        replace hout := hout.trans (if_neg hbad)
        cases body with
        | nil => exact ⟨_, hfirst, hout, h.resSkip lo⟩
        | cons cmd payload =>
          have hcount : (u.takeCrcLo lo).res.count.toNat = 1 + payload.length := by
            rw [(h.recorded lo).count, h.awaits.idx, List.length_cons, Nat.add_comm]
          exact ⟨_, hfirst, hout, h.resSkip lo, h.resCmd lo, hcount,
            fun i hi' => h.window lo (i + 1) (Nat.succ_lt_succ hi')⟩
  · rw [frameDecode_noMarker k strict hmarker]
    by_cases hempty : raw = []
    · subst hempty
      exact .inl ⟨rfl, _, rfl, .inr rfl⟩
    · rcases reportsSkip_of_noMarker (bs := raw) hinv rfl hmarker hempty with ⟨hnone, t, ht, hskip⟩ | hres
      · exact .inl ⟨hnone, t, ht, .inl hskip⟩
      · exact .inr hres

end Sys2Proof.Machine
end

section
/-! PROOFS. The frame rows on a frame with the right checksum (spec/43_commands.md R102 to R106): the row is the frame's
bytes, which the block reports `OK`, and then the view of the body that the host reads. -/

namespace Sys2Proof.Machine

/-! ### The report -/

theorem Recorded.res_eq {s t : State} {st : Status} {ok : Bool} {rx : Word} (h : Recorded s t st ok rx) :
    t.res = ⟨st, ok, s.skip, s.phase, s.len, s.idx, t.res.cmd, rx, s.crc⟩ := by
  obtain ⟨-, -, hstatus, hok, hskip, -, hphase, hlen, hcount, -, -, hrx, hcalc, -, -, -⟩ := h
  rw [← hstatus, ← hok, ← hskip, ← hphase, ← hlen, ← hcount, ← hrx, ← hcalc]

theorem BeforeLastByte.goodFrame {s u : State} {body : List Byte} {hi lo : Byte} (h : BeforeLastByte s u body hi)
    (hpos : 1 ≤ body.length) (hcrc : hi ++ lo = frameCrc s.crcK (lenByteOf body) body) :
    GoodFrame s (u.takeCrcLo lo) body hi lo := by
  have hrec : Recorded u (u.takeCrcLo lo) .ok true (hi ++ lo) := by
    have hverdict := h.recorded lo
    rwa [if_neg fun hbad => hbad.1 hcrc, if_neg (List.ne_nil_of_length_pos hpos), decide_eq_true hcrc] at hverdict
  have hkept : KeptAtFrameEnd u (u.takeCrcLo lo) := keptAtFrameEnd_endFrame u _ _ _
  have hcrcu : u.crc = hi ++ lo := h.awaits.crc.trans hcrc.symm
  exact {
    out := hrec.out
    phase := rfl
    syncCnt := hkept.syncCnt.trans h.awaits.syncCnt
    len := hkept.len ▸ h.awaits.len
    idx := hkept.idx ▸ h.awaits.idx
    crc := hkept.crc.trans hcrcu
    crcRxHi := hkept.crcRxHi.trans h.awaits.crcRxHi
    skip := hrec.skip
    resValid := hrec.resValid
    overrun := by rw [hrec.overrun, h.kept.overrun, h.kept.resValid]; rfl
    res := by
      rw [hrec.res_eq, h.resCmd, h.kept.skip, h.awaits.phase, hcrcu, hkept.len, hkept.idx, State.lock_skip]
    wbuf := fun i hlt => (hkept.wbuf i).trans (h.awaits.wbuf i hlt)
    wbuf_kept := fun i hle => (hkept.wbuf i).trans (h.wbuf_kept i hle)
    resBody := fun i hlt => by
      have hread : u.wbuf.read i = some body[i] := (h.awaits.wbuf i hlt).trans (List.getElem?_eq_getElem hlt)
      rw [hrec.copied i (h.awaits.idx ▸ hlt) _ hread, List.getElem?_eq_getElem hlt]
    resBody_kept := fun i hle => by rw [hrec.kept i (h.awaits.idx ▸ hle), h.kept.resBody, State.lock_resBody]
    window := h.window lo
    kept := h.stream.trans (deliverByte_keptByStream (h.deliverByte lo)) }

/-! ### The view -/

section
variable {s t : State} {body : List Byte} {hi lo : Byte} (h : GoodFrame s t body hi lo)
include h

/-- The consumer's view is no register of the block. -/
theorem GoodFrame.takeView : GoodFrame s t.takeView body hi lo :=
  { h with kept := ⟨h.kept.strict, h.kept.ie, h.kept.crcK, h.kept.hRdata, h.kept.input⟩ }

theorem GoodFrame.consumerView (hpos : 1 ≤ body.length) :
    t.consumerView = classView (cmdClass (body.headD 0)) t.bodyWindow body.length := by
  have hcount : t.res.count.toNat = body.length := by rw [h.res]; exact h.idx
  have hcmd : t.res.cmd = body.headD 0 := by rw [h.res]
  rw [State.consumerView, if_pos ⟨h.out, hcount ▸ hpos⟩, hcmd, hcount]

end

/-- A frame row on a frame with the right checksum: the report, and the view of the host's window on the body. -/
theorem deliverFrame_good {s : State} (cmd : Byte) {payload : List Byte} {hi lo : Byte} (hp : s.phase = .hunt)
    (hc : s.syncCnt = 0) (hlen : payload.length ≤ 254)
    (hcrc : hi ++ lo = frameCrc s.crcK (lenByteOf (cmd :: payload)) (cmd :: payload)) :
    ∃ t, deliverFrame (lenByteOf (cmd :: payload)) cmd (payload ++ [hi, lo]) s = .next t
      ∧ GoodFrame s t (cmd :: payload) hi lo
      ∧ t.view = classView (cmdClass cmd) t.bodyWindow (payload.length + 1) := by
  have hpos : 1 ≤ (cmd :: payload).length := Nat.succ_pos _
  obtain ⟨u, hu, h⟩ := deliver_beforeLastByte hp hc (body := cmd :: payload) (Nat.succ_le_succ hlen) hi
  have hgood : GoodFrame s (u.takeCrcLo lo) (cmd :: payload) hi lo := h.goodFrame hpos hcrc
  have hbytes : frameBytes (lenByteOf (cmd :: payload)) cmd (payload ++ [hi, lo])
      = (marker ++ lenByteOf (cmd :: payload) :: (cmd :: payload ++ [hi])) ++ [lo] := by simp [frameBytes]
  have hrun : deliver (frameBytes (lenByteOf (cmd :: payload)) cmd (payload ++ [hi, lo])) s
      = .next (u.takeCrcLo lo) := by
    rw [hbytes, deliver_append, hu, andThen_next, deliver_cons, h.deliverByte lo]; rfl
  exact ⟨_, deliverFrame_of_deliver hrun, hgood.takeView, hgood.consumerView hpos⟩

/-- The payload as the host reads it, from element 1 of the body window on. -/
theorem GoodFrame.payload_eq_window {s t : State} {cmd : Byte} {payload : List Byte} {hi lo : Byte}
    (h : GoodFrame s t (cmd :: payload) hi lo) :
    payload = (List.range payload.length).map fun i => t.bodyWindow (i + 1) := by
  refine List.ext_getElem (by simp) fun i hi' _ => ?_
  have hread : (cmd :: payload)[i + 1]? = some (t.bodyWindow (i + 1)) := h.window (i + 1) (Nat.succ_lt_succ hi')
  rw [List.getElem_map, List.getElem_range, ← Option.some_inj, ← hread, List.getElem?_cons_succ,
    List.getElem?_eq_getElem hi']

/-! ### The five rows -/

/-- Settles O48: a view other than `INVALID` needs a payload of one byte, which is `BODY[1]`. -/
theorem setPttFrameIsReportedAndViewed : Obligations.SetPttFrameIsReportedAndViewed := by
  intro s payload hi lo hp hc hlen hcrc
  obtain ⟨t, ht, hgood, hview⟩ := deliverFrame_good 0x07 hp hc hlen hcrc
  refine ⟨t, ht, hgood, hview.trans (congrArg PayloadView.ptt ?_)⟩
  have hpayload := hgood.payload_eq_window
  split
  · next p =>
    obtain rfl : p = t.bodyWindow 1 := by simpa [List.range_succ] using hpayload
    rfl
  · next hno =>
    refine if_pos fun hn => ?_
    match payload, hn with
    | [p], _ => exact hno p rfl

/-- Settles O49: the two fields need a payload of eight bytes, which are `BODY[1]` to `BODY[8]`. -/
theorem setFreqFrameIsReportedAndViewed : Obligations.SetFreqFrameIsReportedAndViewed := by
  intro s payload hi lo hp hc hlen hcrc
  obtain ⟨t, ht, hgood, hview⟩ := deliverFrame_good 0x09 hp hc hlen hcrc
  refine ⟨t, ht, hgood, hview.trans (congrArg PayloadView.freq ?_)⟩
  have hpayload := hgood.payload_eq_window
  split
  · next a b c d e f g h =>
    simp only [List.length_cons, List.length_nil, List.range_succ, List.range_zero] at hpayload
    cases hpayload
    rfl
  · next hno =>
    refine if_pos fun hn => ?_
    match payload, hn with
    | [a, b, c, d, e, f, g, h], _ => exact hno a b c d e f g h rfl

/-- Settles O50: the two mode ids need a payload of two bytes, which are `BODY[1]` and `BODY[2]`. -/
theorem setModeFrameIsReportedAndViewed : Obligations.SetModeFrameIsReportedAndViewed := by
  intro s payload hi lo hp hc hlen hcrc
  obtain ⟨t, ht, hgood, hview⟩ := deliverFrame_good 0x0A hp hc hlen hcrc
  refine ⟨t, ht, hgood, hview.trans (congrArg PayloadView.mode ?_)⟩
  have hpayload := hgood.payload_eq_window
  split
  · next m n =>
    obtain ⟨rfl, rfl⟩ : m = t.bodyWindow 1 ∧ n = t.bodyWindow 2 := by simpa [List.range_succ] using hpayload
    rfl
  · next hno =>
    refine if_pos fun hn => ?_
    match payload, hn with
    | [m, n], _ => exact hno m n rfl

/-- Settles O51: the classes of 0B and of every unknown type have no view, whatever the body. -/
theorem queryAndUnknownFramesAreReportedWithoutView : Obligations.QueryAndUnknownFramesAreReportedWithoutView := by
  refine ⟨fun s payload hi lo hp hc hlen hcrc => ?_, fun s cmd payload hi lo hp hc hlen hunknown hcrc => ?_⟩
  · exact deliverFrame_good 0x0B hp hc hlen hcrc
  · obtain ⟨t, ht, hgood, hview⟩ := deliverFrame_good cmd hp hc hlen hcrc
    exact ⟨t, ht, hgood, by rw [hview, hunknown]; rfl⟩

end Sys2Proof.Machine
end

section
/-! PROOFS. The registers as the host reads them (spec/44_host.md R124; spec/20_memory.md R49): the packed words as
numbers, the body window, the addresses where nothing is mapped, and what reads back after `Reset` (R117, R40). -/

namespace Sys2Proof.Machine

/-! ### Packed words as numbers -/

theorem append_toNat {m n : Nat} (x : BitVec m) (y : BitVec n) : (x ++ y).toNat = 2 ^ n * x.toNat + y.toNat := by
  rw [BitVec.toNat_append, ← Nat.shiftLeft_add_eq_or_of_lt y.isLt, Nat.shiftLeft_eq, Nat.mul_comm]

theorem bit_toNat (b : Bool) : (bit b).toNat = b.toNat := BitVec.toNat_ofBool b

theorem ctrlWord_toNat (ie strict : Bool) : (ctrlWord ie strict).toNat = strict.toNat + 2 * ie.toNat := by
  simp only [ctrlWord, append_toNat, bit_toNat, BitVec.ofNat_eq_ofNat, BitVec.toNat_zero]
  omega

theorem statusWord_toNat (irq overrun valid skip : Bool) (sync : BitVec 2) (p : Phase) :
    (statusWord irq overrun valid skip sync p).toNat
      = (phaseCode p).toNat + 8 * sync.toNat + 32 * skip.toNat + 64 * valid.toNat + 128 * overrun.toNat
        + 256 * irq.toNat := by
  simp only [statusWord, append_toNat, bit_toNat, BitVec.ofNat_eq_ofNat, BitVec.toNat_zero]
  omega

theorem resInfoWord_toNat (r : Result) :
    (resInfoWord r).toNat
      = (statusCode r.status).toNat + 8 * r.crcOk.toNat + 16 * r.skip.toNat + 32 * (phaseCode r.phase).toNat
        + 256 * r.len.toNat := by
  simp only [resInfoWord, append_toNat, bit_toNat]
  omega

/-- The bits that `CTRL` takes from a written word are its value modulo 4. -/
theorem ctrlWord_of_bits (v : Word) : ctrlWord v[1] v[0] = v &&& 0x0003 := by
  have hbit (i : Nat) (hi : i < 16) : v[i].toNat = v.toNat / 2 ^ i % 2 := Nat.toNat_testBit v.toNat i
  have hmask : (v &&& 0x0003).toNat = v.toNat % 4 := Nat.and_two_pow_sub_one_eq_mod v.toNat 2
  apply BitVec.eq_of_toNat_eq
  rw [ctrlWord_toNat, hbit 0, hbit 1, hmask]
  omega

/-! ### The address map -/

theorem bodyWindow_of_le {s : State} {i : Nat} (h : s.res.count.toNat ≤ i) : s.bodyWindow i = 0 :=
  if_neg (Nat.not_lt.mpr h)

theorem bodyWindow_of_read {s : State} {i : Nat} (h : i < s.res.count.toNat) {c : Byte}
    (hread : s.resBody.read i = some c) : s.bodyWindow i = c := by
  rw [State.bodyWindow, if_pos h, hread, Option.getD_some]

/-- Such an address is above the named registers and outside the body window. -/
theorem hostRead_unmapped (s : State) {a : Addr} (h : 0x00B ≤ a.toNat ∧ a.toNat ≤ 0x0FF ∨ a = 0x1FF) :
    s.hostRead a = 0 := by
  have hout : 0x00A < a.toNat ∧ ¬(0x100 ≤ a.toNat ∧ a.toNat ≤ 0x1FE) := by
    rcases h with h | rfl
    · omega
    · decide
  obtain ⟨habove, hbody⟩ := hout
  have hne {c : Addr} (hc : c.toNat ≤ 0x00A) : a ≠ c := by
    rintro rfl
    omega
  unfold State.hostRead
  iterate 11 rw [if_neg (hne (by decide))]
  rw [if_neg hbody]

/-- Settles O24: each register's packing as a number, the window gated by `RES_COUNT`, and zero where nothing is
mapped. -/
theorem hostReadFollowsTheRegisterMap : Obligations.HostReadFollowsTheRegisterMap := by
  intro s
  refine ⟨fun _ => rfl, ctrlWord_toNat .., statusWord_toNat .., rfl, resInfoWord_toNat _, ?cmdcnt, rfl, rfl, rfl,
    ?lenidx, ?crchi, rfl, fun i hi c hc => ?window, fun i hcount hi => ?past, fun _ => hostRead_unmapped s⟩
  case cmdcnt => exact (wordOfBytes_toNat s.res.count s.res.cmd).trans (Nat.add_comm ..)
  case lenidx => exact (wordOfBytes_toNat s.idx s.len).trans (Nat.add_comm ..)
  case crchi => exact (wordOfBytes_toNat 0 s.crcRxHi).trans (Nat.zero_add _)
  case window =>
    have hcount : s.res.count.toNat < 256 := s.res.count.isLt
    rw [hostRead_body s (by omega), bodyWindow_of_read hi hc, BitVec.toNat_setWidth_of_le (by decide)]
  case past =>
    rw [hostRead_body s (by omega), bodyWindow_of_le hcount]
    rfl

/-! ### `Reset` (R117, R40) -/

/-- After reset the registers that do not read zero are `CTRL`, `LIVE_CRC` and `PARAM_K`. -/
theorem hostRead_resetEvent (s : State) (a : Addr) :
    s.resetEvent.hostRead a
      = if a = 0x000 then 0x0001 else if a = 0x007 then 0xFFFF else if a = 0x00A then s.crcK else 0x0000 := by
  have hwindow (i : Nat) : s.resetEvent.bodyWindow i = 0 := bodyWindow_of_le (Nat.zero_le i)
  have hctrl : ctrlWord false true = 1 := by decide
  have hstatus : statusWord false false false false 0 .hunt = 0 := by decide
  have hinfo : resInfoWord Result.reset = 0 := by decide
  have hbytes : wordOfBytes 0 0 = 0 := by decide
  by_cases h0 : a = 0x000
  · subst h0; exact hctrl
  by_cases h7 : a = 0x007
  · subst h7; rfl
  by_cases hK : a = 0x00A
  · subst hK; rfl
  · simp only [State.hostRead, hwindow, h0, h7, hK, if_false]
    split_ifs
    exacts [hstatus, rfl, hinfo, hbytes, rfl, rfl, hbytes, hbytes, hbytes, rfl]

/-- Settles O19: the row's state is the table's, and with no byte counted a byte that is no sync byte changes only
`SKIP`. -/
theorem resetGivesTheResetTable : Obligations.ResetGivesTheResetTable := fun s =>
  ⟨runEvent_reset s, s.resetEvent, rfl, rfl, hostRead_resetEvent s, rfl, rfl,
    fun _ hb => (runEvent_other_byte rfl hb).trans (exec_huntSkip rfl hb)⟩

end Sys2Proof.Machine
end

section
/-! PROOFS. Host writes (spec/44_host.md R118 to R125): `CTRL`, the commands of `CMDR` one after another, and the
addresses where a write is ignored. -/

namespace Sys2Proof.Machine

/-- Settles O20: the row sets the two bits that `CTRL` and `irq` are made of. -/
theorem ctrlWriteSetsStrictAndIe : Obligations.CtrlWriteSetsStrictAndIe := fun s v =>
  ⟨runEvent_ctrlWrite v s, s.writeCtrl v, rfl, rfl, ctrlWord_of_bits v, irq_eq _⟩

/-- Settles O23: the row of R69 for such an address only clears `Out`. -/
theorem otherHostWritesAreIgnored : Obligations.OtherHostWritesAreIgnored := fun s _ v h0 h2 =>
  have hexec := whenSelected_of s.quiet ⟨h0, h2⟩
  ⟨(runEvent_otherWrite h0 h2 v s).trans hexec.symm, hexec⟩

/-! ### The commands of a `CMDR` write -/

theorem quiet_of_out {s : State} (h : s.out = Out.quiet) : s.quiet = s := by
  rw [State.quiet, State.setOut, ← h]

theorem exec_of_out_quiet {i : Instr} {f : State → State} {s : State} (hi : exec i s = .next (f s.quiet))
    (h : s.out = Out.quiet) : exec i s = .next (f s) := by
  rw [hi, quiet_of_out h]

theorem command_out {f : State → State} (hf : ∀ u, (f u).out = u.out) (s : State) (b : Bool) :
    (s.command b f).out = s.out := by
  cases b
  · rfl
  · exact hf s

/-- A command whose bit is set, as a sequence of at most one instruction, before the commands after it. -/
theorem execAll_command {i : Instr} {f : State → State} {s : State} (h : exec i s = .next (f s)) (b : Bool)
    (is : List Instr) : execAll ((if b then [i] else []) ++ is) s = execAll is (s.command b f) := by
  cases b
  · rfl
  · exact congrArg (andThen · (execAll is)) h

/-- Once `Out` is quiet, a clearing command changes its flag alone, so the next one finds `Out` quiet too. -/
theorem execAll_commandsOf {s : State} (v : Word) (h : s.out = Out.quiet) :
    execAll (commandsOf v) s
      = .next ((((s.command v[0] State.ack).command v[1] State.clrOvr).command v[2] State.clrSkip).command v[3]
          State.abort) := by
  have hack := command_out State.ack_out s v[0]
  have hovr := command_out State.clrOvr_out (s.command v[0] State.ack) v[1]
  rw [commandsOf, List.append_assoc, List.append_assoc,
    execAll_command (exec_of_out_quiet (i := .cmdrAck) rfl h),
    execAll_command (exec_of_out_quiet (i := .cmdrClrOvr) rfl (hack.trans h)),
    execAll_command (exec_of_out_quiet (i := .cmdrClrSkip) rfl (hovr.trans (hack.trans h))),
    ← List.append_nil (if v[3] then _ else _), execAll_command (i := .cmdrAbort) rfl]
  rfl

theorem getElem_of_mask_eq_zero {v m : Word} (h : v &&& m = 0) {i : Nat} {hi : i < 16} (hm : m[i] = true) :
    v[i] = false := by
  have hbit : (v &&& m)[i] = false := by rw [h]; exact BitVec.getElem_zero hi
  rwa [BitVec.getElem_and, hm, Bool.and_true] at hbit

theorem commands_of_no_command (s : State) {v : Word} (h : v &&& 0x000F = 0) : s.commands v = s.quiet := by
  have h0 : v[0] = false := getElem_of_mask_eq_zero h (by decide)
  have h1 : v[1] = false := getElem_of_mask_eq_zero h (by decide)
  have h2 : v[2] = false := getElem_of_mask_eq_zero h (by decide)
  have h3 : v[3] = false := getElem_of_mask_eq_zero h (by decide)
  simp only [State.commands, h0, h1, h2, h3]
  rfl

theorem commands_out_of_no_record {s : State} {v : Word} (h : v[3] = false ∨ s.phase = .hunt) :
    (s.commands v).out = Out.quiet := by
  rcases commands_records s v with ⟨-, hout⟩ | ⟨h3, hp, -⟩
  · exact hout
  · simp [h3, hp] at h

/-- Settles O21: the bits of `v`, lowest first, are the conditions under which the write runs its commands. -/
theorem cmdrWriteRunsItsCommandsInOrder : Obligations.CmdrWriteRunsItsCommandsInOrder := fun s v =>
  ⟨runEvent_cmdrWrite v s, (execAll_commandsOf v (State.quiet_out s)).symm, s.commands v, rfl, rfl,
    commands_of_no_command s, commands_out_of_no_record⟩

/-- Settles O22: a clearing command and the `CMDR` write of its bit give the same state. -/
theorem clearingCommandsClearOneFlagEach : Obligations.ClearingCommandsClearOneFlagEach := fun s =>
  ⟨⟨rfl, rfl, Bool.and_false s.ie⟩, ⟨rfl, rfl⟩, ⟨rfl, rfl⟩⟩

end Sys2Proof.Machine
end

section
/-! PROOFS. Reading a result while another arrives (spec/70_reset_and_hazards.md R153): an unacknowledged result that is
replaced leaves `OVERRUN` set; and what `STRICT = 1` says of a result without error (R155). -/

namespace Sys2Proof.Machine

/-! ### A result is kept, or its replacement shows in `OVERRUN` (R133) -/

/-- From `s` to `t` a result has stayed unacknowledged, and `OVERRUN = 0` in `t` says that it is the one of `s`. -/
structure OverrunGuards (s t : State) : Prop where
  resValid : t.resValid = true
  kept : t.overrun = false → s.overrun = false ∧ t.res = s.res ∧ t.resBody = s.resBody

theorem OverrunGuards.trans {s u t : State} (h₁ : OverrunGuards s u) (h₂ : OverrunGuards u t) : OverrunGuards s t where
  resValid := h₂.resValid
  kept ht := by
    obtain ⟨hu, hres₂, hbody₂⟩ := h₂.kept ht
    obtain ⟨hs, hres₁, hbody₁⟩ := h₁.kept hu
    exact ⟨hs, hres₂.trans hres₁, hbody₂.trans hbody₁⟩

theorem OverrunGuards.bodyWindow {s t : State} (h : OverrunGuards s t) (ht : t.overrun = false) (i : Nat) :
    t.bodyWindow i = s.bodyWindow i := by
  obtain ⟨-, hres, hbody⟩ := h.kept ht
  rw [State.bodyWindow, State.bodyWindow, hres, hbody]

/-- Recording over an unacknowledged result sets `OVERRUN`, whatever the new record is. -/
theorem overrunGuards_of_recorded {s t : State} {st : Status} {ok : Bool} {rx : Word} (hv : s.resValid = true)
    (h : Recorded s t st ok rx) : OverrunGuards s t where
  resValid := h.resValid
  kept ht := by simp [h.overrun, hv] at ht

/-- An operation that records nothing and clears neither flag leaves the result as it was. -/
theorem overrunGuards_of_unchanged {s t : State} (hv : s.resValid = true) (hvalid : t.resValid = s.resValid)
    (hover : t.overrun = s.overrun) (hres : t.res = s.res) (hbody : t.resBody = s.resBody) : OverrunGuards s t :=
  ⟨hvalid.trans hv, fun ht => ⟨hover.symm.trans ht, hres, hbody⟩⟩

section
variable {s : State} (hv : s.resValid = true)
include hv

theorem overrunGuards_refl : OverrunGuards s s := overrunGuards_of_unchanged hv rfl rfl rfl rfl

theorem deliverByte_overrunGuards {b : Byte} {t : State} (h : deliverByte b s = .next t) : OverrunGuards s t := by
  rcases deliverByte_next h with ⟨-, -, -, rfl⟩ | ⟨-, -, -, rfl⟩ | ⟨-, -, rfl⟩ | ⟨-, -, rfl⟩ | ⟨-, -, rfl⟩
    | ⟨-, -, rfl⟩ | ⟨-, -, rfl⟩ | ⟨-, rfl⟩ | ⟨-, rfl⟩
  any_goals exact overrunGuards_of_unchanged hv rfl rfl rfl rfl
  exact overrunGuards_of_recorded hv (recorded_takeCrcLo s b)

theorem abort_overrunGuards : OverrunGuards s s.abort := by
  by_cases hp : s.phase = .hunt
  · rw [abort_of_hunt hp]
    exact overrunGuards_of_unchanged hv rfl rfl rfl rfl
  · rw [abort_of_frame hp]
    exact overrunGuards_of_recorded hv (recorded_endFrame s _ _ _)

theorem clears_overrunGuards {v : Word} (h0 : v[0] = false) (h1 : v[1] = false) : OverrunGuards s (s.clears v) :=
  overrunGuards_of_unchanged hv (by simp [h0]) (by simp [State.clears, h1]) rfl rfl

theorem commands_overrunGuards {v : Word} (h0 : v[0] = false) (h1 : v[1] = false) :
    OverrunGuards s (s.commands v) := by
  have hclears := clears_overrunGuards hv h0 h1
  rw [commands_eq]
  split_ifs
  · exact hclears.trans (abort_overrunGuards hclears.resValid)
  · exact hclears

theorem runEvent_overrunGuards {e : Event} {t : State} (hreset : e ≠ .reset) (hcmdr : writesCmdr 0x0003 e = false)
    (h : runEvent e s = .next t) : OverrunGuards s t := by
  cases e with
  | reset => exact absurd rfl hreset
  | idle => cases (runEvent_idle s).symm.trans h; exact overrunGuards_of_unchanged hv rfl rfl rfl rfl
  | byte b => exact deliverByte_overrunGuards hv (runEvent_byte_next_iff.mp h)
  | abort => cases (runEvent_abort s).symm.trans h; exact abort_overrunGuards hv
  | hostWrite a v =>
    by_cases h0 : a = 0x000
    · subst h0; cases (runEvent_ctrlWrite v s).symm.trans h; exact overrunGuards_of_unchanged hv rfl rfl rfl rfl
    by_cases h2 : a = 0x002
    · subst h2
      cases (runEvent_cmdrWrite v s).symm.trans h
      have hmask : v &&& 0x0003 = 0 := by simpa [writesCmdr] using hcmdr
      exact commands_overrunGuards hv (getElem_of_mask_eq_zero hmask (by decide))
        (getElem_of_mask_eq_zero hmask (by decide))
    · cases (runEvent_otherWrite h0 h2 v s).symm.trans h; exact overrunGuards_of_unchanged hv rfl rfl rfl rfl

end

theorem runEvents_overrunGuards {es : List Event} {s t : State} (hv : s.resValid = true)
    (hes : ∀ e ∈ es, e ≠ .reset ∧ writesCmdr 0x0003 e = false) (h : runEvents es s = .next t) : OverrunGuards s t := by
  induction es generalizing s with
  | nil => cases h; exact overrunGuards_refl hv
  | cons e es ih =>
    obtain ⟨⟨hreset, hcmdr⟩, hrest⟩ := List.forall_mem_cons.mp hes
    obtain ⟨u, hu, htail⟩ := runEvents_cons_next h
    have hfirst := runEvent_overrunGuards hv hreset hcmdr hu
    exact hfirst.trans (ih hfirst.resValid hrest htail)

/-- Settles O29, by induction on the events: each keeps the result or sets `OVERRUN`, and none of them clears it. -/
theorem replacementBeforeAckSetsOverrun : Obligations.ReplacementBeforeAckSetsOverrun := by
  intro es s t hv hes h
  have hguards := runEvents_overrunGuards hv hes h
  refine ⟨hguards.resValid, fun ht => ?_⟩
  obtain ⟨-, hres, -⟩ := hguards.kept ht
  exact ⟨hres, hguards.bodyWindow ht⟩

/-! ### A result without error, recorded with `STRICT = 1` -/

theorem commands_of_abort (s : State) {v : Word} (h : v[3] = true) : s.commands v = (s.clears v).abort := by
  rw [commands_eq, if_pos h]

theorem abort_out_of_frame {s : State} (hp : s.phase ≠ .hunt) : s.abort.out = ⟨true, .truncated⟩ := by
  rw [abort_of_frame hp]
  rfl

/-- Only the last byte of a frame gives a verdict: the aborts that record report `TRUNCATED` (R98). -/
theorem endsFrame_verdict_or_truncated {e : Event} {s t : State} (hend : EndsFrame e s) (h : runEvent e s = .next t) :
    (∃ b, e = .byte b ∧ s.phase = .crcLo ∧ t = s.takeCrcLo b) ∨ t.out = ⟨true, .truncated⟩ := by
  obtain ⟨⟨b, rfl⟩, hp⟩ | ⟨rfl, hp⟩ | ⟨⟨v, rfl, h3⟩, hp⟩ := hend
  · cases ((runEvent_crcLo hp b).trans (exec_crcloByte hp b)).symm.trans h
    exact .inl ⟨b, rfl, hp, rfl⟩
  · cases (runEvent_abort s).symm.trans h
    exact .inr (abort_out_of_frame hp)
  · cases (runEvent_cmdrWrite v s).symm.trans h
    rw [commands_of_abort s h3]
    exact .inr (abort_out_of_frame (s := s.clears v) hp)

/-- With `STRICT = 1` a mismatch is always reported (R96). -/
theorem takeCrcLo_badCrc {s : State} {b : Byte} (hstrict : s.strict = true) (hbad : s.crcRxHi ++ b ≠ s.crc) :
    (s.takeCrcLo b).out = ⟨true, .badCrc⟩ := by
  rw [(recorded_takeCrcLo s b).out, if_pos ⟨hbad, hstrict⟩]

/-- Settles O15: of the events that record, an abort reports `TRUNCATED` and a byte with the wrong checksum `BAD_CRC`. -/
theorem strictOkHasGoodChecksum : Obligations.StrictOkHasGoodChecksum := by
  intro e s t hstrict h hout
  have hdone : t.out.done = true := by rcases hout with hout | hout <;> rw [hout]
  have hend : EndsFrame e s := (onlyThreeKindsOfEventRecord e s t h).1.mp hdone
  rcases endsFrame_verdict_or_truncated hend h with ⟨b, rfl, hp, rfl⟩ | htrunc
  · have hgood : s.crcRxHi ++ b = s.crc := by
      by_contra hbad
      simp [takeCrcLo_badCrc hstrict hbad] at hout
    exact ⟨b, rfl, hp, hgood, by rw [(recorded_takeCrcLo s b).crcOk]; exact decide_eq_true hgood⟩
  · simp [htrunc] at hout

end Sys2Proof.Machine
end
